-- ==== Sys2Proof/Word.lean ====
section
/-! DEFINITION. The widths the source fixes (spec/00_scope.md R5, R6, R7): the 16-bit word and the 8-bit byte of the wire. -/

namespace Sys2Proof

/-- The 16-bit word: a CONFIG word or a raw sample (R5). Bit 15 is the most significant bit (R6). -/
abbrev Word := BitVec 16

/-- The byte of the wire (R5, R40). -/
abbrev Byte := BitVec 8

/-- The 28-bit command word `CW28` (R68). -/
abbrev CommandWord := BitVec 28

end Sys2Proof
end

