-- ==== Sys2Proof/Syntax.lean ====
section
/-! DEFINITION. One constructor per row of spec/opcode_table.json. Every operand has the exact width of its port (spec/10_state.md
R21), so an over-wide operand is not an instruction. -/

namespace Sys2Proof

/-- The twelve commands of R68, the four reserved op codes of R72 and the two bus transactions of R80. -/
inductive Instr where
  /-- CFG.PACK (R91): the eight fields. -/
  | cfgPack (ss : BitVec 1) (mux : BitVec 3) (pga : BitVec 3) (mode : BitVec 1) (dr : BitVec 3) (ts : BitVec 1)
      (pu : BitVec 1) (nop : BitVec 2)
  /-- CFG.UNPACK (R92). -/
  | cfgUnpack (a : Word)
  /-- CFG.BTST (R93). -/
  | cfgBtst (n : BitVec 5) (a : Word)
  /-- CFG.BSET (R94). -/
  | cfgBset (n : BitVec 5) (a : Word)
  /-- CFG.BCLR (R95). -/
  | cfgBclr (n : BitVec 5) (a : Word)
  /-- CFG.PRESET (R96). -/
  | cfgPreset (n : BitVec 5)
  /-- CFG.SPLIT (R97). -/
  | cfgSplit (a : Word)
  /-- SMP.JOIN (R117): the byte received first, the byte received second. -/
  | smpJoin (bh : Byte) (bl : Byte)
  /-- SMP.SEXT (R126). -/
  | smpSext (a : Word)
  /-- ADC.SCALE (R130): PGA selector, raw sample. -/
  | adcScale (g : BitVec 3) (a : Word)
  /-- ADC.MV (R133): PGA selector, raw sample. -/
  | adcMv (g : BitVec 3) (a : Word)
  /-- TMP.DEC (R146). -/
  | tmpDec (a : Word)
  /-- Op code 0xC (R72). -/
  | reservedC
  /-- Op code 0xD (R72). -/
  | reservedD
  /-- Op code 0xE (R72). -/
  | reservedE
  /-- Op code 0xF (R72). -/
  | reservedF
  /-- BUS.WR (R111): the CONFIG word sent. -/
  | busWr (w : Word)
  /-- BUS.RD (R113): the CONFIG word sent while the sample is received. -/
  | busRd (next : Word)
deriving DecidableEq, Repr

end Sys2Proof
end

