-- ==== Sys2Proof/Machine/Ports.lean ====
section
/-! DEFINITION. The ports of the block, each at the exact width of spec/10_state.md R21, R22 and R24, under the spec's own names. -/

namespace Sys2Proof.Machine

/-- The input ports (R21). -/
structure InPorts where
  op : BitVec 4
  a : Word
  n : BitVec 5
  g : BitVec 3
  bh : Byte
  bl : Byte
  f_ss : BitVec 1
  f_mux : BitVec 3
  f_pga : BitVec 3
  f_mode : BitVec 1
  f_dr : BitVec 3
  f_ts : BitVec 1
  f_pu : BitVec 1
  f_nop : BitVec 2
deriving DecidableEq, Repr, Inhabited

/-- The data output ports (R22). `yf` is the VALUE of the floating-point reading, an exact rational that the format `FLT`
represents (R8, R9); `encodeFloat` gives its bits. -/
structure OutPorts where
  y : Word
  yb : BitVec 1
  yh : Byte
  yl : Byte
  ys : BitVec 32
  yf : Rat
  q_ss : BitVec 1
  q_mux : BitVec 3
  q_pga : BitVec 3
  q_mode : BitVec 1
  q_dr : BitVec 3
  q_ts : BitVec 1
  q_pu : BitVec 1
  q_nop : BitVec 2
  q_rsv : BitVec 1
deriving DecidableEq, Repr, Inhabited

/-- The five status outputs (R22, R24). -/
structure Status where
  st_ill : Bool
  st_oor : Bool
  st_inv_pga : Bool
  st_inv_preset : Bool
  st_ovf : Bool
deriving DecidableEq, Repr, Inhabited

end Sys2Proof.Machine
end

