-- ==== Sys2Proof/Config.lean ====
section
/-! DEFINITION. The implementation parameters of spec/00_scope.md R5, as one record of plain data, and the free values: constants
without a body, of which nothing can be proved but that they are what they are. The parameters' default values stand in
Machine/Defaults.lean. -/

namespace Sys2Proof

open Sys2Proof.Machine

/-- The two formats the spec gives values for (R129, R132), rounding to nearest, ties to even (R9). -/
inductive IeeeFormat where
  | binary32
  | binary64
deriving DecidableEq, Repr, Inhabited

/-- `FLT` (R5, R9, D8), which the spec leaves open: one of the two formats it gives values for, or any other format and
rounding, of which no more is known than R9 lets a model assume. -/
inductive FltFormat where
  | ieee (f : IeeeFormat)
  | other (index : Nat)
deriving DecidableEq, Repr, Inhabited

/-- A decimal literal `coeff / 10 ^ places` (R8), such as 7.8 = 78 / 10. -/
structure Literal where
  coeff : Int
  places : Nat
deriving DecidableEq, Repr, Inhabited

/-- The kind of a `KTAB` row (R37). -/
inductive GainKind where
  | fs
  | ratio
deriving DecidableEq, Repr, Inhabited

/-- A row of `KTAB` (R37): its kind and its literal. -/
structure GainRow where
  kind : GainKind
  literal : Literal
deriving DecidableEq, Repr, Inhabited

/-- `TEMP_NEG_MODE` (R5, R147 to R149). -/
inductive TempNegMode where
  | scr15
  | arith
  | bit16
deriving DecidableEq, Repr, Inhabited

/-- What a `MUX` code can connect (R62). -/
inductive AnalogPin where
  | ain0
  | ain1
  | ain2
  | ain3
  | gnd
deriving DecidableEq, Repr, Inhabited

/-- What the `MODE` bit selects (R64). -/
inductive ConversionMode where
  | continuous
  | singleShot
deriving DecidableEq, Repr, Inhabited

/-- What the `TS_MODE` bit selects (R64). -/
inductive SensorMode where
  | adc
  | temperature
deriving DecidableEq, Repr, Inhabited

/-- What the `PULL_UP` bit selects (R64). -/
inductive PullUp where
  | disabled
  | enabled
deriving DecidableEq, Repr, Inhabited

/-- A row of `MUX_MEANING` (R62). -/
structure MuxInputs where
  positive : AnalogPin
  negative : AnalogPin
deriving DecidableEq, Repr, Inhabited

/-- The parameters of R5. `presets` is a finite map from preset index to literal word; `pgaRange` is in millivolts, with no
entry for the codes that are not among the six meaningful ones (R63). -/
structure Config where
  flt : FltFormat
  ktab : Vector GainRow 6
  tempNegMode : TempNegMode
  packBit0 : BitVec 1
  presets : List (BitVec 5 × Word)
  devConfigReset : Word
  muxMeaning : Vector MuxInputs 8
  drMeaning : Vector Nat 8
  pgaRange : Vector (Option Nat) 8
deriving DecidableEq, Repr, Inhabited

/-- The rounding of a format that is neither of the two (R9): free, but that it is monotone. `fl` (Machine/FloatFormat.lean)
takes it for positive numbers and mirrors it, so that it is odd. -/
opaque Config.freeRounding : Nat → Rat →o Rat

/-- How far beyond the largest number of the format a product that overflows it reads: free (log entry 7). -/
opaque Config.freeOverflow : IeeeFormat → Rat

/-- The data outputs a command's rule does not name, and all of them on a fault (R39, R170): free, a fresh draw each time. -/
opaque Config.freeOutputs : Nat → OutPorts

/-- `DEV.READY` (R30, R114): the oracle's level after a step, free. -/
opaque Config.freeReady : Nat → Bool

/-- `DEV.CONV` (R30, R116): the content of the device's output shift register after a step, free. -/
opaque Config.freeConv : Nat → Word

/-- A byte the device returns during BUS.WR (R111, U11): free, and discarded. -/
opaque Config.freeByte : Nat → Byte

/-- Which neighbour an integer mean takes when the count does not divide the sum (R161, U14): free. -/
opaque Config.freeRoundsUp : Nat → Bool

end Sys2Proof
end

