-- ==== Sys2Proof/Machine/Requests.lean ====
section
/-! DEFINITION. What the host presents to the block and to the bus, and what can be seen on the bus (spec/10_state.md R23,
spec/41_transport_handshake.md R110). Types only. -/

namespace Sys2Proof.Machine

/-- Which of the two bus transactions the host performs. Nothing on the wire tells them apart (R80), so the choice is the
host's and stands beside the bytes. -/
inductive BusDir where
  | write
  | read
deriving DecidableEq, Repr, Inhabited

/-- One encoded request. A command is a command word, held as a number so that an over-wide one can be offered and refused
(R21, D14); a transaction is the bytes sent inside one chip-select bracket, so that a length other than two can be offered
and refused (R45). -/
inductive Request where
  | command (cw : Nat)
  | transaction (dir : BusDir) (bytes : List Byte)
deriving DecidableEq, Repr, Inhabited

/-- The variant of an averaged reading (R160). -/
inductive AvgVariant where
  | float
  | integer
deriving DecidableEq, Repr, Inhabited

/-- One item of the host's ordered list (R23). Beside literal requests, the host may feed an output back into a later input
(R20): the items that the pseudo-operations (R79) and the averaged reading (R160) are made of. -/
inductive HostItem where
  /-- A request written out. -/
  | issue (r : Request)
  /-- A bus transaction sending the two bytes of the last CFG.SPLIT, `yh` then `yl`. -/
  | sendSplit (dir : BusDir)
  /-- SMP.JOIN of the two bytes received last. -/
  | joinReceived
  /-- ADC.SCALE of the last `y`. -/
  | scaleY (g : BitVec 3)
  /-- ADC.MV of the last `y`. -/
  | millivoltY (g : BitVec 3)
  /-- TMP.DEC of the last `y`. -/
  | temperatureY
  /-- Averaging (R160): `sum <- 0`. -/
  | avgBegin
  /-- Averaging (R160): `sum <- sum + r_i`. -/
  | avgAdd (v : AvgVariant)
  /-- Averaging (R160): `return sum / n`. -/
  | avgMean (n : Nat) (v : AvgVariant)
deriving DecidableEq, Repr, Inhabited

/-- What the host primitives of R110 do, as seen on the bus and on the select and ready lines. -/
inductive BusEvent where
  | selectAssert
  | poll (ready : Bool)
  | exchange (tx rx : Byte)
  | selectDeassert
deriving DecidableEq, Repr, Inhabited

/-- The faults of R171 to R173, with what each records, and the fault of the host composition AVG (R162). -/
inductive CommandFault where
  | illegalOp (op : BitVec 4)
  | invalidPga (g : BitVec 3)
  | invalidPreset (n : BitVec 5)
  | divideByZero
deriving DecidableEq, Repr, Inhabited

/-- How the latest command of the block ended (R11). A hang is no outcome of a step: it is a poll repeated forever (R114). -/
inductive CommandOutcome where
  /-- No command has been evaluated since reset (R34). -/
  | pending
  | ok
  | fault (f : CommandFault)
deriving DecidableEq, Repr, Inhabited

/-- How the latest averaged reading ended (R160, R162, R163). -/
inductive AvgOutcome where
  /-- No averaged reading has ended yet. -/
  | pending
  | mean (q : Rat)
  | fault (f : CommandFault)
deriving DecidableEq, Repr, Inhabited

end Sys2Proof.Machine
end

