-- ==== Sys2Proof/WellFormed.lean ====
section
/-! DEFINITION. The checks on what the types leave open. An `Instr` needs none: each operand has its port's exact width
(spec/10_state.md R21). A request, as the host offers it, and a parameter record do. -/

namespace Sys2Proof

open Sys2Proof.Machine

/-- A command word is 28 bits wide (R68); a bus transaction is exactly two bytes (R45). -/
def Machine.Request.wellFormed : Request → Bool
  | .command cw => decide (cw < 2 ^ 28)
  | .transaction _ bytes => decide (bytes.length = 2)

/-- An item of the host's list is well-formed when the request it writes out is. -/
def Machine.HostItem.wellFormed : HostItem → Bool
  | .issue r => r.wellFormed
  | .sendSplit _ | .joinReceived | .scaleY _ | .millivoltY _ | .temperatureY | .avgBegin | .avgAdd _ | .avgMean _ _ => true

/-- "a configuration field that contains at least `0 -> 0xC38B`" (R38). -/
def Config.wellFormed (c : Config) : Bool := decide (c.presets.lookup 0 = some 0xC38B)

end Sys2Proof
end

