-- ==== Sys2Proof/Decode.lean ====
section
/-! DEFINITION. The decoder of the command word `CW28` and of the wire format `WIRE16` (spec/30_encoding.md R68, R71, R72, R80),
total, rejecting by name; and the encoder. -/

namespace Sys2Proof

open Sys2Proof.Machine

/-- Why a request is no instruction. -/
inductive DecodeError where
  /-- The command word does not fit the 28 bits of the ports (R21, D14): refused, not masked. -/
  | overWide (cw : Nat)
  /-- A bus transaction of a length other than two bytes (R45, D19). -/
  | transactionLength (bytes : Nat)
deriving DecidableEq, Repr

/-- The bits `lo + w - 1 : lo` of a word (R6). -/
def bitField {n : Nat} (x : BitVec n) (lo w : Nat) : BitVec w := x.extractLsb' lo w

/-- The `op` field of a command word (R68). -/
def opField (cw : CommandWord) : BitVec 4 := bitField cw 24 4

/-- The `n` field of a command word (R68). -/
def nField (cw : CommandWord) : BitVec 5 := bitField cw 19 5

/-- The `g` field of a command word (R68). -/
def gField (cw : CommandWord) : BitVec 3 := bitField cw 16 3

/-- The `operand` field of a command word (R68). -/
def operandField (cw : CommandWord) : Word := bitField cw 0 16

/-- The byte that travels first (R43, R70). -/
def highByte (w : Word) : Byte := bitField w 8 8

/-- The byte that travels second (R43, R70). -/
def lowByte (w : Word) : Byte := bitField w 0 8

/-- `pack` of R70: the nine pieces, the first in the most significant place. -/
def packFields (ss : BitVec 1) (mux pga : BitVec 3) (mode : BitVec 1) (dr : BitVec 3) (ts pu : BitVec 1) (nop : BitVec 2)
    (b0 : BitVec 1) : Word :=
  ss ++ mux ++ pga ++ mode ++ dr ++ ts ++ pu ++ nop ++ b0

/-- The operand of CFG.PACK holds the eight fields, with a pad in bit 0 (R68). -/
def decodePackOperand (x : Word) : Instr :=
  .cfgPack (bitField x 15 1) (bitField x 12 3) (bitField x 9 3) (bitField x 8 1) (bitField x 5 3) (bitField x 4 1)
    (bitField x 3 1) (bitField x 1 2)

/-- "A decoder for the command word reads bits 27:24 and nothing else to choose the operation" (R71). Every op code has its
own line; the last line is 0xF, the one that is left. -/
def decodeCommandWord (cw : CommandWord) : Instr :=
  let x := operandField cw
  match (opField cw).toNat with
  | 0x0 => decodePackOperand x
  | 0x1 => .cfgUnpack x
  | 0x2 => .cfgBtst (nField cw) x
  | 0x3 => .cfgBset (nField cw) x
  | 0x4 => .cfgBclr (nField cw) x
  | 0x5 => .cfgPreset (nField cw)
  | 0x6 => .cfgSplit x
  | 0x7 => .smpJoin (highByte x) (lowByte x)
  | 0x8 => .smpSext x
  | 0x9 => .adcScale (gField cw) x
  | 0xA => .adcMv (gField cw) x
  | 0xB => .tmpDec x
  | 0xC => .reservedC
  | 0xD => .reservedD
  | 0xE => .reservedE
  | _ => .reservedF

/-- `WIRE16` (R80): two bytes, the high byte first; which transaction they belong to is the host's to say. -/
def decodeTransaction (dir : BusDir) : List Byte → Except DecodeError Instr
  | [hi, lo] =>
    match dir with
    | .write => .ok (.busWr (hi ++ lo))
    | .read => .ok (.busRd (hi ++ lo))
  | bytes => .error (.transactionLength bytes.length)

/-- The instruction a request stands for. -/
def decode : Request → Except DecodeError Instr
  | .command cw => if cw < 2 ^ 28 then .ok (decodeCommandWord (BitVec.ofNat 28 cw)) else .error (.overWide cw)
  | .transaction dir bytes => decodeTransaction dir bytes

/-- `CW28` put together: `op ++ n ++ g ++ operand` (R68). -/
def commandWord (op : BitVec 4) (n : BitVec 5) (g : BitVec 3) (operand : Word) : CommandWord := op ++ n ++ g ++ operand

/-- The command word of a command, the fields it does not use written as zero (R68, R76); none for a bus transaction, which
has no op code. -/
def encodeCommandWord : Instr → Option CommandWord
  | .cfgPack ss mux pga mode dr ts pu nop =>
    some (commandWord 0x0 0 0 (packFields ss mux pga mode dr ts pu nop 0))
  | .cfgUnpack a => some (commandWord 0x1 0 0 a)
  | .cfgBtst n a => some (commandWord 0x2 n 0 a)
  | .cfgBset n a => some (commandWord 0x3 n 0 a)
  | .cfgBclr n a => some (commandWord 0x4 n 0 a)
  | .cfgPreset n => some (commandWord 0x5 n 0 0)
  | .cfgSplit a => some (commandWord 0x6 0 0 a)
  | .smpJoin bh bl => some (commandWord 0x7 0 0 (bh ++ bl))
  | .smpSext a => some (commandWord 0x8 0 0 a)
  | .adcScale g a => some (commandWord 0x9 0 g a)
  | .adcMv g a => some (commandWord 0xA 0 g a)
  | .tmpDec a => some (commandWord 0xB 0 0 a)
  | .reservedC => some (commandWord 0xC 0 0 0)
  | .reservedD => some (commandWord 0xD 0 0 0)
  | .reservedE => some (commandWord 0xE 0 0 0)
  | .reservedF => some (commandWord 0xF 0 0 0)
  | .busWr _ => none
  | .busRd _ => none

/-- The two bytes of a word in the order of the wire (R43, R80). -/
def wireBytes (w : Word) : List Byte := [highByte w, lowByte w]

/-- The request that stands for an instruction. -/
def encode (i : Instr) : Request :=
  match i with
  | .busWr w => .transaction .write (wireBytes w)
  | .busRd next => .transaction .read (wireBytes next)
  | i => .command ((encodeCommandWord i).getD 0).toNat

/-- A row of spec/opcode_table.json laid out as the host presents it: a row of at most 16 bits is a `WIRE16` row, whose word
travels high byte first and is offered as a write (R80: the bits do not say which transaction it is, log entry 9); a longer one
is a command word. A word that does not fit the row's format keeps its excess, so that the decoder refuses it. -/
def tableRequest (nbits w : Nat) : Request :=
  if nbits ≤ 16 then
    if w < 2 ^ 16 then .transaction .write (wireBytes (BitVec.ofNat 16 w))
    else .transaction .write (BitVec.ofNat 8 (w / 2 ^ 16) :: wireBytes (BitVec.ofNat 16 w))
  else .command w

/-- The instruction the decoder reads from a row's word; none where it refuses. -/
def decodeTableWord (nbits w : Nat) : Option Instr := (decode (tableRequest nbits w)).toOption

end Sys2Proof
end

