-- ==== Sys2Proof/Machine/Defaults.lean ====
section
/-! DEFINITION. The default values of the parameters (spec/00_scope.md R5). -/

namespace Sys2Proof

/-- The default `KTAB` (R37): two ratio rows (codes 1 and 5), four full-scale rows. -/
def defaultKtab : Vector GainRow 6 :=
  #v[⟨.fs, 6144, 0⟩, ⟨.ratio, 125, 3⟩, ⟨.fs, 2048, 0⟩, ⟨.fs, 1024, 0⟩, ⟨.fs, 512, 0⟩, ⟨.ratio, 78, 1⟩]

/-- The catalog as far as the source gives it (R38): index 0, `PRESET_AIN0_SE_FS4096_SS_128SPS_PU`. -/
def defaultPresets : List (BitVec 5 × Word) := [(0, 0xC38B)]

/-- `MUX_MEANING` (R62). -/
def defaultMuxMeaning : Vector MuxInputs 8 :=
  #v[⟨.ain0, .ain1⟩, ⟨.ain0, .ain3⟩, ⟨.ain1, .ain3⟩, ⟨.ain2, .ain3⟩, ⟨.ain0, .gnd⟩, ⟨.ain1, .gnd⟩, ⟨.ain2, .gnd⟩,
    ⟨.ain3, .gnd⟩]

/-- `DR_MEANING` (R65), samples per second. -/
def defaultDrMeaning : Vector Nat 8 := #v[8, 16, 32, 64, 128, 250, 475, 860]

/-- `PGA_RANGE` (R63), millivolts. -/
def defaultPgaRange : Vector (Option Nat) 8 :=
  #v[some 6144, some 4096, some 2048, some 1024, some 512, some 256, none, none]

/-- All defaults of R5. `devConfigReset` is the value R35 marks as general knowledge (log entry 3). -/
def defaultConfig : Config where
  flt := .ieee .binary32
  ktab := defaultKtab
  tempNegMode := .scr15
  packBit0 := 1
  presets := defaultPresets
  devConfigReset := 0x058B
  muxMeaning := defaultMuxMeaning
  drMeaning := defaultDrMeaning
  pgaRange := defaultPgaRange

end Sys2Proof
end

