-- ==== Sys2Proof/Machine/State.lean ====
section
/-! DEFINITION. The state of the block's ports, of the bus, of the device and of the host (spec/10_state.md), as plain data. -/

namespace Sys2Proof.Machine

/-- The device (R25 to R33). `config` is `DEV.CONFIG[14:3]`, its bit 0 being bit 3 of the word: SS, NOP and bit 0 are not
stored (R26, R28, R29). -/
structure Device where
  /-- `DEV.CONFIG[14:3]` (R25, R27). -/
  config : BitVec 12
  /-- `DEV.CONV`, the output shift register (R30). -/
  conv : Word
  /-- `DEV.READY`, what `data_ready()` returns (R30). -/
  ready : Bool
  /-- A conversion has been requested and no conversion read has completed since (R33 b). -/
  pending : Bool
  /-- How many conversion starts have been requested: each latching write with SS = 1 is a new one (R26, R31, R53). -/
  requests : Nat
  /-- Whether the last word shifted in latched (R33 d). -/
  latched : Bool
deriving DecidableEq, Repr

/-- The bus as the host sees it (R110). -/
structure Bus where
  /-- The device's select line is asserted. -/
  selected : Bool
  /-- The byte the last conversion read received first (R113). -/
  rxHigh : Byte
  /-- The byte the last conversion read received second (R113). -/
  rxLow : Byte
  /-- What has happened on the bus, oldest first (R112). -/
  trace : List BusEvent
deriving DecidableEq, Repr

/-- The host's averaging (R160): the running sum and how the last averaged reading ended. -/
structure Averaging where
  sum : Rat
  result : AvgOutcome
deriving DecidableEq, Repr

/-- The whole machine. The block itself keeps nothing (R20); its output ports hold the latest command's results until the next
command (R34). -/
structure State where
  /-- The parameters of R5: fixed for the life of the machine, no step changes them (R190). They stand here so that every
  statement about every state holds for every choice of them. -/
  cfg : Config
  /-- The input ports, as last driven (R21). -/
  inp : InPorts
  /-- The data output ports (R22). -/
  out : OutPorts
  /-- The status outputs (R24). -/
  st : Status
  /-- How the latest command ended (R11). -/
  outcome : CommandOutcome
  /-- The faults recorded so far, oldest first (R170). -/
  faults : List CommandFault
  /-- The device at the far end of the bus (R25, R30). -/
  dev : Device
  /-- The bus and the select line (R110). -/
  bus : Bus
  /-- What the host has still to present, in its order (R23, R50). -/
  program : List HostItem
  /-- The host's averaging (R160). -/
  avg : Averaging
  /-- How many free values have been drawn: the argument of the next one (the model's own counter). -/
  draws : Nat
deriving DecidableEq, Repr

/-- Why the machine stops. The block's own faults (R170) stop nothing: they are a next state with a status output set. -/
inductive Fault where
  /-- Raised by BUS.WR when the select line is already asserted, that is, inside another transaction. Safe: the spec has "no
  move for another master on the bus between a select assertion and its deassertion" (R119). -/
  | busInUse
deriving DecidableEq, Repr

/-- Why a request has no meaning. -/
inductive Refusal where
  /-- An instruction that has no meaning in this model: none at present. Safe. -/
  | notModelled (mnemonic : String)
  /-- Raised by the step when the host offers a request that is no instruction: an over-wide command word (R21) or a bus
  transaction that is not two bytes long (R45). Safe: the spec refuses both. -/
  | rejected (e : DecodeError)
deriving DecidableEq, Repr

/-- Every status output 0 (R24). -/
def Status.clear : Status := ⟨false, false, false, false, false⟩

/-- All input ports 0: the model's value before the host has driven them. -/
def InPorts.zero : InPorts :=
  { op := 0, a := 0, n := 0, g := 0, bh := 0, bl := 0, f_ss := 0, f_mux := 0, f_pga := 0, f_mode := 0, f_dr := 0, f_ts := 0,
    f_pu := 0, f_nop := 0 }

/-- All data outputs 0: the model's value before the first command (R34 leaves it open). -/
def OutPorts.zero : OutPorts :=
  { y := 0, yb := 0, yh := 0, yl := 0, ys := 0, yf := 0, q_ss := 0, q_mux := 0, q_pga := 0, q_mode := 0, q_dr := 0, q_ts := 0,
    q_pu := 0, q_nop := 0, q_rsv := 0 }

/-- The machine right after power-up under the parameters `c` (R34 to R36, R190): `DEV.CONFIG[14:3]` comes from
`DEV_CONFIG_RESET`; everything the spec leaves unspecified has the value log entries 2 to 4 name. -/
def State.resetWith (c : Config) : State where
  cfg := c
  inp := InPorts.zero
  out := OutPorts.zero
  st := Status.clear
  outcome := .pending
  faults := []
  dev :=
    { config := c.devConfigReset.extractLsb' 3 12, conv := 0, ready := false, pending := false, requests := 0, latched := false }
  bus := { selected := false, rxHigh := 0, rxLow := 0, trace := [] }
  program := []
  avg := { sum := 0, result := .pending }
  draws := 0

/-- The machine right after power-up with the default parameters of R5. -/
def State.reset : State := State.resetWith defaultConfig

end Sys2Proof.Machine
end

