-- ==== Sys2Proof/Machine/Operands.lean ====
section
/-! DEFINITION. Field assembly and extraction, byte assembly, the bit accessors and the signed reading of a sample
(spec/30_encoding.md R60, R67, R70; spec/40_register_codec.md R93 to R95; spec/42_value_converter_adc.md R125), and the input
ports a command word drives (R68). -/

namespace Sys2Proof.Machine

/-- `SS`, bit 15 (R60). -/
def fieldSs (w : Word) : BitVec 1 := bitField w 15 1

/-- `MUX`, bits 14:12 (R60). -/
def fieldMux (w : Word) : BitVec 3 := bitField w 12 3

/-- `PGA`, bits 11:9 (R60). -/
def fieldPga (w : Word) : BitVec 3 := bitField w 9 3

/-- `MODE`, bit 8 (R60). -/
def fieldMode (w : Word) : BitVec 1 := bitField w 8 1

/-- `DR`, bits 7:5 (R60). -/
def fieldDr (w : Word) : BitVec 3 := bitField w 5 3

/-- `TS_MODE`, bit 4 (R60). -/
def fieldTs (w : Word) : BitVec 1 := bitField w 4 1

/-- `PULL_UP`, bit 3 (R60). -/
def fieldPu (w : Word) : BitVec 1 := bitField w 3 1

/-- `NOP`, bits 2:1 (R60). -/
def fieldNop (w : Word) : BitVec 2 := bitField w 1 2

/-- The unused bit 0 (R60). -/
def fieldRsv (w : Word) : BitVec 1 := bitField w 0 1

/-- `join` of R70: both bytes zero-extended (R117, D15). -/
def joinBytes (bh bl : Byte) : Word := (bh.zeroExtend 16 <<< 8) ||| bl.zeroExtend 16

/-- A bit index of 16 or more names no bit of a word (R24, R174). -/
def indexOutOfRange (n : BitVec 5) : Bool := decide (16 ≤ n.toNat)

/-- CFG.BTST's result (R93): the bit, and 0 for an index outside the word. -/
def testBit (a : Word) (n : BitVec 5) : BitVec 1 := if indexOutOfRange n then 0 else bitField a n.toNat 1

/-- CFG.BSET's result (R94): outside the word the set bit is lost. -/
def setBit (a : Word) (n : BitVec 5) : Word := if indexOutOfRange n then a else a ||| (1#16 <<< n.toNat)

/-- CFG.BCLR's result (R95). -/
def clearBit (a : Word) (n : BitVec 5) : Word := if indexOutOfRange n then a else a &&& ~~~(1#16 <<< n.toNat)

/-- `sval_16` (R7, R125): every use of a raw word by the Value Converter goes through it. -/
def sval (raw : Word) : Int := raw.toInt

/-- `trunc_16` (R7): the integer modulo 65536. -/
def trunc16 (z : Int) : Word := BitVec.ofInt 16 z

/-- `sext_32` (R7, R126). -/
def sext32 (a : Word) : BitVec 32 := a.signExtend 32

/-- The input ports that a command word drives (R68): the operand appears on every port that can take it, since a port that a
command does not read has no effect on it (R21). -/
def drivenPorts (cw : CommandWord) : InPorts :=
  let x := operandField cw
  { op := opField cw, a := x, n := nField cw, g := gField cw, bh := highByte x, bl := lowByte x,
    f_ss := fieldSs x, f_mux := fieldMux x, f_pga := fieldPga x, f_mode := fieldMode x, f_dr := fieldDr x, f_ts := fieldTs x,
    f_pu := fieldPu x, f_nop := fieldNop x }

/-- What the host's MUX code in force connects (R62). -/
def selectedInputs (c : Config) (mux : BitVec 3) : MuxInputs := c.muxMeaning[mux.toFin]

/-- The samples per second of a DR code (R65). -/
def dataRate (c : Config) (dr : BitVec 3) : Nat := c.drMeaning[dr.toFin]

/-- The full-scale range of a PGA code in millivolts; none for a code that is not among the six meaningful ones (R63, R74). -/
def fullScaleRange (c : Config) (pga : BitVec 3) : Option Nat := c.pgaRange[pga.toFin]

/-- A `MODE` code (R64). -/
def conversionMode (mode : BitVec 1) : ConversionMode := if mode = 1 then .singleShot else .continuous

/-- A `TS_MODE` code (R64). -/
def sensorMode (ts : BitVec 1) : SensorMode := if ts = 1 then .temperature else .adc

/-- A `PULL_UP` code (R64). -/
def pullUpState (pu : BitVec 1) : PullUp := if pu = 1 then .enabled else .disabled

/-- `MUX` of the device's stored configuration (R25). -/
def Device.mux (d : Device) : BitVec 3 := bitField d.config 9 3

/-- `PGA` of the device's stored configuration (R25). -/
def Device.pga (d : Device) : BitVec 3 := bitField d.config 6 3

/-- `MODE` of the device's stored configuration (R25); `conversionMode` gives its meaning. -/
def Device.mode (d : Device) : BitVec 1 := bitField d.config 5 1

/-- `DR` of the device's stored configuration (R25). -/
def Device.dr (d : Device) : BitVec 3 := bitField d.config 2 3

/-- `TS_MODE` of the device's stored configuration (R25); `sensorMode` gives its meaning. -/
def Device.tsMode (d : Device) : BitVec 1 := bitField d.config 1 1

/-- `PULL_UP` of the device's stored configuration (R25); `pullUpState` gives its meaning. -/
def Device.pullUp (d : Device) : BitVec 1 := bitField d.config 0 1

/-- `DEV.CONFIG` as a 16-bit word: bit 0 reads as 1 (R29); SS and NOP are not stored, so whatever they read as is the
argument's (R26, R28). -/
def Device.configWord (d : Device) (ss : BitVec 1) (nop : BitVec 2) : Word := ss ++ d.config ++ nop ++ 1#1

end Sys2Proof.Machine
end

