-- ==== Sys2Proof/Machine/Flags.lean ====
section
/-! DEFINITION. The status outputs (spec/10_state.md R24; spec/60_exceptions.md R170 to R175). -/

namespace Sys2Proof.Machine

/-- The status vector `st[4:0]` (R170). -/
def Status.vector (s : Status) : BitVec 5 :=
  BitVec.ofBool s.st_ovf ++ BitVec.ofBool s.st_inv_preset ++ BitVec.ofBool s.st_inv_pga ++ BitVec.ofBool s.st_oor ++
    BitVec.ofBool s.st_ill

/-- The status of a bit accessor: `st_oor` for an index of 16 or more (R174). -/
def bitIndexStatus (n : BitVec 5) : Status := { Status.clear with st_oor := indexOutOfRange n }

/-- An integer that does not fit 16 signed bits (R134, R175). -/
def overflows16 (z : Int) : Bool := decide (z < -32768 ∨ 32767 < z)

/-- The status of ADC.MV (R134). -/
def overflowStatus (z : Int) : Status := { Status.clear with st_ovf := overflows16 z }

/-- The status a fault sets, and no other (R171 to R173, R178). AVG is no command, so its fault sets none (R176). -/
def faultStatus : CommandFault → Status
  | .illegalOp _ => { Status.clear with st_ill := true }
  | .invalidPga _ => { Status.clear with st_inv_pga := true }
  | .invalidPreset _ => { Status.clear with st_inv_preset := true }
  | .divideByZero => Status.clear

end Sys2Proof.Machine
end

