-- ==== Sys2Proof/Machine/Ops.lean ====
section
/-! DEFINITION. The named operations on the state: how a command answers and how it faults (spec/00_scope.md R10, R11;
spec/60_exceptions.md R170), the host primitives of the bus (spec/41_transport_handshake.md R110) and the device-side write
(spec/10_state.md R31). -/

namespace Sys2Proof.Machine

/-- The host's list without the item just done (R23, R50). -/
def State.retire (s : State) : State := { s with program := s.program.tail }

/-- A command ends with `ok` (R11): `set` writes the outputs its rule names, every other data output is free (R39), all five
status outputs are given (R24). -/
def State.answer (s : State) (set : OutPorts → OutPorts) (st : Status) : State :=
  { s with
    out := set (Config.freeOutputs s.draws)
    st := st
    outcome := .ok
    draws := s.draws + 1
    program := s.program.tail }

/-- `raise` (R10, R170): the fault's status output is 1 and the others 0, every data output is free, the fault is recorded;
nothing is saved, no control is transferred, the host goes on (R179, R180). -/
def State.raise (s : State) (f : CommandFault) : State :=
  { s with
    out := Config.freeOutputs s.draws
    st := faultStatus f
    outcome := .fault f
    faults := s.faults ++ [f]
    draws := s.draws + 1
    program := s.program.tail }

/-- Something happens on the bus. -/
def State.note (s : State) (e : BusEvent) : State := { s with bus := { s.bus with trace := s.bus.trace ++ [e] } }

/-- The select line asserted: level control (R110), so a line already asserted stays asserted and nothing is seen on it. -/
def Bus.assertSelect (b : Bus) : Bus :=
  if b.selected then b else { b with selected := true, trace := b.trace ++ [.selectAssert] }

/-- `chip_select_assert()` (R110). -/
def State.selectAssert (s : State) : State := { s with bus := s.bus.assertSelect }

/-- `chip_select_deassert()` (R110). -/
def State.selectDeassert (s : State) : State :=
  { s with bus := { s.bus with selected := false, trace := s.bus.trace ++ [.selectDeassert] } }

/-- One call of `data_ready()` (R110): the level is looked at, nothing changes but what has been seen on the line. -/
def State.poll (s : State) : State := s.note (.poll s.dev.ready)

/-- `xchg` (R110): one byte out, one byte in. -/
def State.exchange (s : State) (tx rx : Byte) : State := s.note (.exchange tx rx)

/-- A word latches exactly when its NOP field is `01` (R28, R66). -/
def latches (w : Word) : Bool := fieldNop w == 1

/-- A latching word with SS = 1 requests a conversion start (R26, R31). -/
def requestsConversion (w : Word) : Bool := latches w && fieldSs w == 1

/-- `DevWrite(w)` (R31) on the device: a word that does not latch is ignored whole, SS included (D16). -/
def Device.write (d : Device) (w : Word) : Device :=
  { d with
    config := if latches w then bitField w 3 12 else d.config
    pending := d.pending || requestsConversion w
    requests := if requestsConversion w then d.requests + 1 else d.requests
    latched := latches w }

/-- `DevWrite(w)` (R31). -/
def State.devWrite (s : State) (w : Word) : State := { s with dev := s.dev.write w }

/-- The sample has been clocked out: no conversion is waiting to be read (R33 b, log entry 5). -/
def State.sampleTaken (s : State) : State := { s with dev := { s.dev with pending := false } }

/-- The host keeps the two bytes received (R113). -/
def State.received (s : State) (bh bl : Byte) : State := { s with bus := { s.bus with rxHigh := bh, rxLow := bl } }

/-- Two free bytes have been drawn. -/
def State.drewTwo (s : State) : State := { s with draws := s.draws + 2 }

/-- What the device does on its own between two host actions (R30, R184): the ready line and the output shift register take the
values given. -/
def State.deviceRuns (s : State) (ready : Bool) (conv : Word) : State :=
  { s with dev := { s.dev with ready := ready, conv := conv }, draws := s.draws + 1 }

end Sys2Proof.Machine
end

