-- ==== Sys2Proof/Machine/RegisterCodec.lean ====
section
/-! DEFINITION. The Register Codec commands (spec/40_register_codec.md R91 to R97). -/

namespace Sys2Proof.Machine

/-- CFG.PACK (R91): bit 0 is `PACK_BIT0`. -/
def execCfgPack (ss : BitVec 1) (mux pga : BitVec 3) (mode : BitVec 1) (dr : BitVec 3) (ts pu : BitVec 1) (nop : BitVec 2)
    (s : State) : Host.Outcome State Fault Refusal :=
  .next (s.answer (fun o => { o with y := packFields ss mux pga mode dr ts pu nop s.cfg.packBit0 }) Status.clear)

/-- CFG.UNPACK (R92). -/
def execCfgUnpack (a : Word) (s : State) : Host.Outcome State Fault Refusal :=
  .next (s.answer
    (fun o =>
      { o with
        q_ss := fieldSs a, q_mux := fieldMux a, q_pga := fieldPga a, q_mode := fieldMode a, q_dr := fieldDr a,
        q_ts := fieldTs a, q_pu := fieldPu a, q_nop := fieldNop a, q_rsv := fieldRsv a })
    Status.clear)

/-- CFG.BTST (R93). -/
def execCfgBtst (n : BitVec 5) (a : Word) (s : State) : Host.Outcome State Fault Refusal :=
  .next (s.answer (fun o => { o with yb := testBit a n }) (bitIndexStatus n))

/-- CFG.BSET (R94). -/
def execCfgBset (n : BitVec 5) (a : Word) (s : State) : Host.Outcome State Fault Refusal :=
  .next (s.answer (fun o => { o with y := setBit a n }) (bitIndexStatus n))

/-- CFG.BCLR (R95). -/
def execCfgBclr (n : BitVec 5) (a : Word) (s : State) : Host.Outcome State Fault Refusal :=
  .next (s.answer (fun o => { o with y := clearBit a n }) (bitIndexStatus n))

/-- CFG.PRESET (R96): a literal of the catalog, or the fault `InvalidPreset`. -/
def execCfgPreset (n : BitVec 5) (s : State) : Host.Outcome State Fault Refusal :=
  match s.cfg.presets.lookup n with
  | some w => .next (s.answer (fun o => { o with y := w }) Status.clear)
  | none => .next (s.raise (.invalidPreset n))

/-- CFG.SPLIT (R97). -/
def execCfgSplit (a : Word) (s : State) : Host.Outcome State Fault Refusal :=
  .next (s.answer (fun o => { o with yh := highByte a, yl := lowByte a }) Status.clear)

end Sys2Proof.Machine
end

