-- ==== Sys2Proof/Machine/Reserved.lean ====
section
/-! DEFINITION. The reserved op codes (spec/30_encoding.md R72; spec/60_exceptions.md R171): each raises `IllegalOp`. -/

namespace Sys2Proof.Machine

/-- Op code 0xC (R72, R171). -/
def execReservedC (s : State) : Host.Outcome State Fault Refusal := .next (s.raise (.illegalOp 0xC))

/-- Op code 0xD (R72, R171). -/
def execReservedD (s : State) : Host.Outcome State Fault Refusal := .next (s.raise (.illegalOp 0xD))

/-- Op code 0xE (R72, R171). -/
def execReservedE (s : State) : Host.Outcome State Fault Refusal := .next (s.raise (.illegalOp 0xE))

/-- Op code 0xF (R72, R171). -/
def execReservedF (s : State) : Host.Outcome State Fault Refusal := .next (s.raise (.illegalOp 0xF))

end Sys2Proof.Machine
end

