-- ==== Sys2Proof/Machine/Transport.lean ====
section
/-! DEFINITION. The Transport Handshake (spec/41_transport_handshake.md R110 to R117). -/

namespace Sys2Proof.Machine

/-- BUS.WR (R111): no poll (R112); the two bytes received are free and discarded. Inside another transaction there is no
move for it (R119). -/
def execBusWr (w : Word) (s : State) : Host.Outcome State Fault Refusal :=
  if s.bus.selected then .fault .busInUse
  else
    .next
      (((((s.selectAssert.exchange (highByte w) (Config.freeByte s.draws)).exchange (lowByte w)
        (Config.freeByte (s.draws + 1))).selectDeassert).devWrite w).drewTwo.retire)

/-- BUS.RD (R113). While the device is not ready the poll is repeated: the select line stays asserted and the transaction stays
the next thing the host does, with no bound (R114). Once it is ready the sample is exchanged against `next`, and `next` is a
CONFIG word to the device (R115). -/
def execBusRd (next : Word) (s : State) : Host.Outcome State Fault Refusal :=
  if s.dev.ready then
    .next
      ((((((s.selectAssert.poll.exchange (highByte next) (highByte s.dev.conv)).exchange (lowByte next)
        (lowByte s.dev.conv)).selectDeassert).sampleTaken.devWrite next).received (highByte s.dev.conv)
        (lowByte s.dev.conv)).retire)
  else .next s.selectAssert.poll

/-- SMP.JOIN (R117). -/
def execSmpJoin (bh bl : Byte) (s : State) : Host.Outcome State Fault Refusal :=
  .next (s.answer (fun o => { o with y := joinBytes bh bl }) Status.clear)

end Sys2Proof.Machine
end

