-- ==== Sys2Proof/Machine/FloatFormat.lean ====
section
/-! DEFINITION. `fl` (spec/00_scope.md R9): rounding a rational to the format `FLT`, and the bits of a value of an IEEE format. -/

namespace Sys2Proof.Machine

/-- The number of significant bits of the format. -/
def precision : IeeeFormat → Nat
  | .binary32 => 24
  | .binary64 => 53

/-- The exponent of the least normal number of the format. -/
def minExponent : IeeeFormat → Int
  | .binary32 => -126
  | .binary64 => -1022

/-- The exponent of the largest numbers of the format. -/
def maxExponent : IeeeFormat → Int
  | .binary32 => 127
  | .binary64 => 1023

/-- The largest number of the format. -/
def largest (f : IeeeFormat) : Rat := (2 ^ precision f - 1) * 2 ^ (maxExponent f - (precision f - 1))

/-- From here on, half a unit above the largest number, the nearest value is no number that rounding in the last place gives. -/
def overflowBound (f : IeeeFormat) : Rat := (2 ^ (precision f + 1) - 1) * 2 ^ (maxExponent f - precision f)

/-- What stands for a magnitude that overflows the format: any one value from the largest number on (log entry 7). -/
def overflowValue (f : IeeeFormat) : Rat := largest f + |Config.freeOverflow f|

/-- The integer nearest to a rational; of two equally near, the even one. -/
def roundEven (q : Rat) : Int :=
  if q - ⌊q⌋ < 1 / 2 then ⌊q⌋
  else if 1 / 2 < q - ⌊q⌋ then ⌊q⌋ + 1
  else if ⌊q⌋ % 2 = 0 then ⌊q⌋
  else ⌊q⌋ + 1

/-- The exponent of the unit in the last place of the format at the magnitude of `q`. -/
def ulpExponent (f : IeeeFormat) (q : Rat) : Int := max (Int.log 2 |q|) (minExponent f) - (precision f - 1)

/-- The value nearest to `q` with the format's precision and least exponent, ties to the even significand. -/
def roundNearest (f : IeeeFormat) (q : Rat) : Rat := roundEven (q / 2 ^ ulpExponent f q) * 2 ^ ulpExponent f q

/-- A rounding of the positive numbers carried over to all numbers as an odd function. -/
def oddly (r : Rat → Rat) (q : Rat) : Rat := if q < 0 then -r (-q) else if q = 0 then 0 else r q

/-- `fl(q)` (R9): the value of the format nearest to `q`. For a format other than the two it is any monotone odd function, as R9
lets a model take it. -/
def fl (f : FltFormat) (q : Rat) : Rat :=
  match f with
  | .ieee f => if |q| < overflowBound f then roundNearest f q else oddly (fun _ => overflowValue f) q
  | .other n => oddly (fun x => max (Config.freeRounding n x) 0) q

/-- A rational is representable in an IEEE format when it is an integer of `precision` bits times a power of two that is not
below the least unit, and not beyond the largest number (R9); in another format, when rounding leaves it alone (log entry 7). -/
def Representable (f : FltFormat) (q : Rat) : Prop :=
  match f with
  | .ieee f =>
    (∃ m e : Int, |m| ≤ 2 ^ precision f ∧ minExponent f - (precision f - 1) ≤ e ∧ q = m * 2 ^ e) ∧ |q| ≤ largest f
  | .other n => fl (.other n) q = q

/-- The width of the format in bits. -/
def formatWidth : IeeeFormat → Nat
  | .binary32 => 32
  | .binary64 => 64

/-- The bits of a value of the format as IEEE 754 lays them out: sign, biased exponent, fraction. Zero is `+0.0` (R130, R151);
what lies beyond the largest number is infinity. -/
def encodeFloat (f : IeeeFormat) (v : Rat) : BitVec (formatWidth f) :=
  let u := ulpExponent f v
  let m := ⌊|v| / 2 ^ u⌋.toNat
  let biased := if m < 2 ^ (precision f - 1) then 0 else (u + (precision f - 1) - minExponent f + 1).toNat
  let magnitude :=
    if largest f < |v| then (2 ^ (formatWidth f - precision f) - 1) * 2 ^ (precision f - 1)
    else biased * 2 ^ (precision f - 1) + m % 2 ^ (precision f - 1)
  BitVec.ofNat (formatWidth f) ((if v < 0 then 2 ^ (formatWidth f - 1) else 0) + magnitude)

end Sys2Proof.Machine
end

