-- ==== Sys2Proof/Machine/Scaling.lean ====
section
/-! DEFINITION. The two value paths of the converter: per-gain scaling (spec/42_value_converter_adc.md R127 to R134) and the
temperature code (spec/43_value_converter_temp.md R146 to R149). -/

namespace Sys2Proof.Machine

/-- The exact value of a decimal literal (R8). -/
def literalValue (l : Literal) : Rat := (l.coeff : Rat) / 10 ^ l.places

/-- The exact multiplier `k_g` of a row of `KTAB` (R37). -/
def exactMultiplier (r : GainRow) : Rat :=
  match r.kind with
  | .fs => literalValue r.literal / 32768
  | .ratio => literalValue r.literal

/-- The multiplier `kf_g` as computed in `FLT` (R129): for a full-scale row the quotient is formed first. -/
def multiplier (f : FltFormat) (r : GainRow) : Rat :=
  match r.kind with
  | .fs => fl f (fl f (literalValue r.literal) / 32768)
  | .ratio => fl f (literalValue r.literal)

/-- The row of `KTAB` for a PGA selector; none for 6 and 7, which are no selectors (R127). -/
def gainRow (c : Config) (g : BitVec 3) : Option GainRow := c.ktab[g.toNat]?

/-- The floating-point reading (R130): one rounding, of the product. -/
def reading (f : FltFormat) (r : GainRow) (raw : Word) : Rat := fl f (sval raw * multiplier f r)

/-- The integer before truncation (R133): the ceiling, toward positive infinity for both signs. -/
def millivolts (f : FltFormat) (r : GainRow) (raw : Word) : Int := ⌈reading f r raw⌉

/-- The positive path (R146): a logical shift right by 2. -/
def codePositive (a : Word) : Int := (a >>> 2).toNat

/-- `SCR15` (R147): clear the sign bit, shift, restore the sign bit at position 15, read as signed. -/
def codeScr15 (a : Word) : Int := sval (((a &&& 0x7FFF) >>> 2) ||| 0x8000)

/-- `ARITH` (R148): the 14-bit two's-complement number in bits 15:2. -/
def codeArith (a : Word) : Int := (bitField a 2 14).toInt

/-- `BIT16` (R149): the sign manipulation acts on a bit that does not exist, so every word takes the positive path. -/
def codeBit16 (a : Word) : Int := (a >>> 2).toNat

/-- The temperature code (R146): the mode matters for a word with bit 15 set only. -/
def temperatureCode (m : TempNegMode) (a : Word) : Int :=
  if a.getLsbD 15 then
    match m with
    | .scr15 => codeScr15 a
    | .arith => codeArith a
    | .bit16 => codeBit16 a
  else codePositive a

/-- The temperature reading (R146): the code times 0.03125. -/
def temperature (f : FltFormat) (m : TempNegMode) (a : Word) : Rat := fl f (temperatureCode m a / 32)

end Sys2Proof.Machine
end

