-- ==== Sys2Proof/Machine/ValueConverter.lean ====
section
/-! DEFINITION. The Value Converter commands (spec/42_value_converter_adc.md, spec/43_value_converter_temp.md). -/

namespace Sys2Proof.Machine

/-- SMP.SEXT (R126). -/
def execSmpSext (a : Word) (s : State) : Host.Outcome State Fault Refusal :=
  .next (s.answer (fun o => { o with ys := sext32 a }) Status.clear)

/-- ADC.SCALE (R130): selectors 6 and 7 raise `InvalidPga`. -/
def execAdcScale (g : BitVec 3) (a : Word) (s : State) : Host.Outcome State Fault Refusal :=
  match gainRow s.cfg g with
  | some r => .next (s.answer (fun o => { o with yf := reading s.cfg.flt r a }) Status.clear)
  | none => .next (s.raise (.invalidPga g))

/-- ADC.MV (R133): the ceiling of the same reading, its low 16 bits, and `st_ovf` when it does not fit (R134). -/
def execAdcMv (g : BitVec 3) (a : Word) (s : State) : Host.Outcome State Fault Refusal :=
  match gainRow s.cfg g with
  | some r =>
    .next (s.answer (fun o => { o with y := trunc16 (millivolts s.cfg.flt r a) }) (overflowStatus (millivolts s.cfg.flt r a)))
  | none => .next (s.raise (.invalidPga g))

/-- TMP.DEC (R146). -/
def execTmpDec (a : Word) (s : State) : Host.Outcome State Fault Refusal :=
  .next (s.answer (fun o => { o with yf := temperature s.cfg.flt s.cfg.tempNegMode a }) Status.clear)

end Sys2Proof.Machine
end

