-- ==== Sys2Proof/Machine/Dispatch.lean ====
section
/-! DEFINITION. One arm per constructor of `Instr`, each one direct call of that instruction's meaning. -/

namespace Sys2Proof.Machine

/-- What an instruction does. -/
def exec (i : Instr) (s : State) : Host.Outcome State Fault Refusal :=
  match i with
  | .cfgPack ss mux pga mode dr ts pu nop => Sys2Proof.Machine.execCfgPack ss mux pga mode dr ts pu nop s
  | .cfgUnpack a => Sys2Proof.Machine.execCfgUnpack a s
  | .cfgBtst n a => Sys2Proof.Machine.execCfgBtst n a s
  | .cfgBset n a => Sys2Proof.Machine.execCfgBset n a s
  | .cfgBclr n a => Sys2Proof.Machine.execCfgBclr n a s
  | .cfgPreset n => Sys2Proof.Machine.execCfgPreset n s
  | .cfgSplit a => Sys2Proof.Machine.execCfgSplit a s
  | .smpJoin bh bl => Sys2Proof.Machine.execSmpJoin bh bl s
  | .smpSext a => Sys2Proof.Machine.execSmpSext a s
  | .adcScale g a => Sys2Proof.Machine.execAdcScale g a s
  | .adcMv g a => Sys2Proof.Machine.execAdcMv g a s
  | .tmpDec a => Sys2Proof.Machine.execTmpDec a s
  | .reservedC => Sys2Proof.Machine.execReservedC s
  | .reservedD => Sys2Proof.Machine.execReservedD s
  | .reservedE => Sys2Proof.Machine.execReservedE s
  | .reservedF => Sys2Proof.Machine.execReservedF s
  | .busWr w => Sys2Proof.Machine.execBusWr w s
  | .busRd next => Sys2Proof.Machine.execBusRd next s

end Sys2Proof.Machine
end

