-- ==== Sys2Proof/Machine/Averaging.lean ====
section
/-! DEFINITION. The host's compositions: the averaged reading (spec/44_averaging.md R160 to R164) and the pseudo-operations
(spec/30_encoding.md R79). They are lists of host items; an averaged reading also keeps a sum between them. -/

namespace Sys2Proof.Machine

/-- The per-sample reading `r_i` of R160, taken from the outputs of the command just done. -/
def sampleTerm (v : AvgVariant) (o : OutPorts) : Rat :=
  match v with
  | .float => o.yf
  | .integer => sval o.y

/-- The result of an averaged reading (R161): the exact mean; for the integer variant either neighbour of a mean that is not
an integer (R161, U14). -/
def meanValue (v : AvgVariant) (sum : Rat) (n : Nat) (roundsUp : Bool) : Rat :=
  match v with
  | .float => sum / n
  | .integer => if roundsUp then (⌈sum / n⌉ : Int) else (⌊sum / n⌋ : Int)

/-- The host's list after the averaged reading under way is given up: what stands after its last item. -/
def afterAverage : List HostItem → List HostItem
  | [] => []
  | .avgMean _ _ :: rest => rest
  | _ :: rest => afterAverage rest

/-- `sum <- 0` (R160). -/
def State.beginAverage (s : State) : State := { s with avg := { sum := 0, result := .pending }, program := s.program.tail }

/-- `sum <- sum + r_i` (R160); if the conversion before it faulted, the averaged reading ends with that fault (R163). R163 names
`st_ovf` from any ADC.MV too, and does not say how an averaged reading shows it: here it shows in that ADC.MV's own step, the
wrapped word is summed like any other, and the result carries no mark of it (DESIGN CHOICE, log entry 24). -/
def State.addSample (s : State) (v : AvgVariant) : State :=
  match s.outcome with
  | .fault f => { s with avg := { s.avg with result := .fault f }, program := afterAverage s.program.tail }
  | .ok => { s with avg := { s.avg with sum := s.avg.sum + sampleTerm v s.out }, program := s.program.tail }
  | .pending => { s with avg := { s.avg with sum := s.avg.sum + sampleTerm v s.out }, program := s.program.tail }

/-- `return sum / n` (R160); a count of 0 has no value: the fault `DivideByZero`, which is recorded (R162, R176). -/
def State.endAverage (s : State) (n : Nat) (v : AvgVariant) : State :=
  if n = 0 then
    { s with
      avg := { s.avg with result := .fault .divideByZero }
      faults := s.faults ++ [.divideByZero]
      program := s.program.tail }
  else
    { s with
      avg := { s.avg with result := .mean (meanValue v s.avg.sum n (Config.freeRoundsUp s.draws)) }
      draws := s.draws + 1
      program := s.program.tail }

/-- The conversion of one sample of an averaged reading (R160). -/
def convertItem (g : BitVec 3) : AvgVariant → HostItem
  | .float => .scaleY g
  | .integer => .millivoltY g

/-- One turn of the loop of R160: BUS.RD, SMP.JOIN, the conversion, the addition. -/
def averageTurn (g : BitVec 3) (next : Word) (v : AvgVariant) : List HostItem :=
  [.issue (encode (.busRd next)), .joinReceived, convertItem g v, .avgAdd v]

/-- `n` turns of the loop, and what the host does after them. -/
def averageTurns (g : BitVec 3) (next : Word) (v : AvgVariant) (rest : List HostItem) : Nat → List HostItem
  | 0 => rest
  | n + 1 => averageTurn g next v ++ averageTurns g next v rest n

/-- `AVG(n, g, next, variant)` (R160) as the host's list. -/
def averageItems (n : Nat) (g : BitVec 3) (next : Word) (v : AvgVariant) : List HostItem :=
  .avgBegin :: averageTurns g next v [.avgMean n v] n

/-- `r_i` of R160 as a function of the raw word. -/
def sampleReading (f : FltFormat) (r : GainRow) (v : AvgVariant) (raw : Word) : Rat :=
  match v with
  | .float => reading f r raw
  | .integer => sval (trunc16 (millivolts f r raw))

/-- `WRITE.CFG w` (R79). -/
def writeCfgItems (w : Word) : List HostItem := [.issue (encode (.cfgSplit w)), .sendSplit .write]

/-- `READ.RAW next` (R79). -/
def readRawItems (next : Word) : List HostItem := [.issue (encode (.cfgSplit next)), .sendSplit .read, .joinReceived]

/-- `READ.VOLT next, g` (R79). -/
def readVoltItems (next : Word) (g : BitVec 3) : List HostItem := readRawItems next ++ [.scaleY g]

/-- `READ.MV next, g` (R79). -/
def readMvItems (next : Word) (g : BitVec 3) : List HostItem := readRawItems next ++ [.millivoltY g]

/-- `READ.TEMP next` (R79). -/
def readTempItems (next : Word) : List HostItem := readRawItems next ++ [.temperatureY]

/-- `PRESET name` (R79), by the index of the name. -/
def presetItems (n : BitVec 5) : List HostItem := [.issue (encode (.cfgPreset n))]

end Sys2Proof.Machine
end

