-- ==== Sys2Proof/Machine/Fetch.lean ====
section
/-! DEFINITION. What the host does next (spec/10_state.md R23): the first item of its list, turned into the request it stands
for and decoded. -/

namespace Sys2Proof.Machine

/-- The request a host item stands for (R79): a literal one, or a command or transaction whose operand is fed back from an
output (R20). None for the host's own averaging arithmetic. -/
def HostItem.request (item : HostItem) (s : State) : Option Request :=
  match item with
  | .issue r => some r
  | .sendSplit dir => some (.transaction dir [s.out.yh, s.out.yl])
  | .joinReceived => some (encode (.smpJoin s.bus.rxHigh s.bus.rxLow))
  | .scaleY g => some (encode (.adcScale g s.out.y))
  | .millivoltY g => some (encode (.adcMv g s.out.y))
  | .temperatureY => some (encode (.tmpDec s.out.y))
  | .avgBegin => none
  | .avgAdd _ => none
  | .avgMean _ _ => none

/-- The host's own work: the averaging arithmetic of R160. The other items are requests. -/
def State.hostWork (s : State) (item : HostItem) : State :=
  match item with
  | .avgBegin => s.beginAverage
  | .avgAdd v => s.addSample v
  | .avgMean n v => s.endAverage n v
  | .issue _ | .sendSplit _ | .joinReceived | .scaleY _ | .millivoltY _ | .temperatureY => s

/-- What comes next. -/
inductive Fetched where
  /-- The host has nothing to present. -/
  | idle
  /-- The host computes. -/
  | work (item : HostItem)
  /-- A request, with the instruction it stands for. -/
  | instruction (r : Request) (i : Instr)
  /-- A request that is no instruction. -/
  | invalid (e : DecodeError)
deriving DecidableEq, Repr

/-- The first item of the host's list, decoded. -/
def State.fetch (s : State) : Fetched :=
  match s.program with
  | [] => .idle
  | item :: _ =>
    match item.request s with
    | none => .work item
    | some r =>
      match decode r with
      | .ok i => .instruction r i
      | .error e => .invalid e

/-- Presenting a request: a command word drives the input ports (R68); a bus transaction touches none of them (R41). -/
def State.present (s : State) (r : Request) : State :=
  match r with
  | .command cw => { s with inp := drivenPorts (BitVec.ofNat 28 cw) }
  | .transaction _ _ => s

end Sys2Proof.Machine
end

