-- ==== Sys2Proof/Machine/HostAgent.lean ====
section
/-! DEFINITION. One step of the system: the host does the next thing on its list, then the device runs on its own
(spec/20_memory.md R50; spec/60_exceptions.md R184). The device's new ready level and output shift register are arguments here;
Machine/Step.lean draws them. -/

namespace Sys2Proof.Machine

/-- Does `f` to the next state, if there is one. -/
def andThen (o : Host.Outcome State Fault Refusal) (f : State → State) : Host.Outcome State Fault Refusal :=
  match o with
  | .next s => .next (f s)
  | .fault e => .fault e
  | .refused r => .refused r

/-- One step in which the device's ready line and output shift register end up at `ready` and `conv`. With nothing to present,
the host is idle and only the device runs. -/
def stepWith (ready : Bool) (conv : Word) (s : State) : Host.Outcome State Fault Refusal :=
  match s.fetch with
  | .idle => .next (s.deviceRuns ready conv)
  | .work item => .next ((s.hostWork item).deviceRuns ready conv)
  | .instruction r i => andThen (exec i (s.present r)) (fun t => t.deviceRuns ready conv)
  | .invalid e => .refused (.rejected e)

/-- Steps in which the device's values are the given ones, in order; it stops at the first fault or refusal. -/
def runWith : List (Bool × Word) → State → Host.Outcome State Fault Refusal
  | [], s => .next s
  | d :: ds, s =>
    match stepWith d.1 d.2 s with
    | .next t => runWith ds t
    | .fault e => .fault e
    | .refused r => .refused r

/-- The state with one more item at the head of the host's list. -/
def State.withRequest (s : State) (r : Request) : State := { s with program := .issue r :: s.program }

end Sys2Proof.Machine
end

