-- ==== Sys2Proof/Machine/Step.lean ====
section
/-! DEFINITION. The step, with the device's values drawn free (spec/10_state.md R30), and the place a request is fetched from. -/

namespace Sys2Proof.Machine

/-- One step of the machine: `stepWith` with a free ready level and a free sample. -/
def step (s : State) : Host.Outcome State Fault Refusal :=
  stepWith (Config.freeReady s.draws) (Config.freeConv s.draws) s

/-- `s` with a row's word as the next thing the host presents: the machine has no program counter, the host's list is where
the next request comes from (R23, log entry 8). -/
def State.withFetchWord (s : State) (nbits w : Nat) : State := s.withRequest (tableRequest nbits w)

end Sys2Proof.Machine
end

