-- ==== Sys2Proof/Safety.lean ====
section
/-! DEFINITION. What the statements speak of: which outputs a command's rule names, what a command leaves alone, the shape of
what happens on the bus, and a hang. -/

namespace Sys2Proof.Machine

/-- The outputs of a command that its rule names (R22, R39), the others blanked out: two runs agree on what the spec fixes when
these agree. -/
def namedOutputs (i : Instr) (o : OutPorts) : OutPorts :=
  match i with
  | .cfgPack _ _ _ _ _ _ _ _ => { OutPorts.zero with y := o.y }
  | .cfgUnpack _ =>
    { o with y := 0, yb := 0, yh := 0, yl := 0, ys := 0, yf := 0 }
  | .cfgBtst _ _ => { OutPorts.zero with yb := o.yb }
  | .cfgBset _ _ => { OutPorts.zero with y := o.y }
  | .cfgBclr _ _ => { OutPorts.zero with y := o.y }
  | .cfgPreset _ => { OutPorts.zero with y := o.y }
  | .cfgSplit _ => { OutPorts.zero with yh := o.yh, yl := o.yl }
  | .smpJoin _ _ => { OutPorts.zero with y := o.y }
  | .smpSext _ => { OutPorts.zero with ys := o.ys }
  | .adcScale _ _ => { OutPorts.zero with yf := o.yf }
  | .adcMv _ _ => { OutPorts.zero with y := o.y }
  | .tmpDec _ => { OutPorts.zero with yf := o.yf }
  | .reservedC => OutPorts.zero
  | .reservedD => OutPorts.zero
  | .reservedE => OutPorts.zero
  | .reservedF => OutPorts.zero
  | .busWr _ => OutPorts.zero
  | .busRd _ => OutPorts.zero

/-- The instruction is a bus transaction, not a command of the block (R41). -/
def isTransaction (i : Instr) : Bool :=
  match i with
  | .busWr _ => true
  | .busRd _ => true
  | _ => false

/-- What no command of the block touches: the parameters, the input ports, the device, the bus, the host's averaging (R20,
R41, R90). -/
structure BlockFrame (s t : State) : Prop where
  cfg : t.cfg = s.cfg
  inp : t.inp = s.inp
  dev : t.dev = s.dev
  bus : t.bus = s.bus
  avg : t.avg = s.avg

/-- A command ended with `ok`: no fault was recorded, the status outputs are `st`, the host goes on (R11, R23, R24), and
nothing else of the machine changed. -/
structure Answered (s t : State) (st : Status) : Prop where
  frame : BlockFrame s t
  status : t.st = st
  outcome : t.outcome = .ok
  faults : t.faults = s.faults
  program : t.program = s.program.tail

/-- A command ended with `fault f`: it is recorded, its status output is set, the host goes on (R170, R179, R180), and nothing
else of the machine changed. -/
structure Faulted (s t : State) (f : CommandFault) : Prop where
  frame : BlockFrame s t
  status : t.st = faultStatus f
  outcome : t.outcome = .fault f
  faults : t.faults = s.faults ++ [f]
  program : t.program = s.program.tail

/-- What no bus transaction touches: the parameters, all ports of the block, the recorded faults, the averaging (R41). -/
structure BusFrame (s t : State) : Prop where
  cfg : t.cfg = s.cfg
  inp : t.inp = s.inp
  out : t.out = s.out
  st : t.st = s.st
  outcome : t.outcome = s.outcome
  faults : t.faults = s.faults
  avg : t.avg = s.avg

/-- How far a transaction has got (R111 to R113). -/
inductive BusPhase where
  | idle
  | selected
  | polling
  | ready
  | oneByte
  | twoBytes
deriving DecidableEq, Repr

/-- The next phase, or none where no transaction has that event: a write is select, two bytes, deselect with nothing between
(R112); a read polls after the select until the device is ready, then exchanges two bytes (R113); no other length exists
(R45). -/
def BusPhase.next (p : BusPhase) (e : BusEvent) : Option BusPhase :=
  match e with
  | .selectAssert => if p = .idle then some .selected else none
  | .poll level => if p = .selected ∨ p = .polling then some (if level then .ready else .polling) else none
  | .exchange _ _ =>
    if p = .selected ∨ p = .ready then some .oneByte else if p = .oneByte then some .twoBytes else none
  | .selectDeassert => if p = .twoBytes then some .idle else none

/-- The phase after a trace. -/
def busPhase : BusPhase → List BusEvent → Option BusPhase
  | p, [] => some p
  | p, e :: es =>
    match p.next e with
    | some q => busPhase q es
    | none => none

/-- Everything that has happened on the bus is whole transactions of two bytes, and after them at most a read that is still
polling, exactly while the select line is asserted (R45, R112, R113). -/
def BusWellFormed (s : State) : Prop :=
  busPhase .idle s.bus.trace = some (if s.bus.selected then .polling else .idle)

/-- While the select line is asserted, what the host does next is the conversion read that is polling (R47, R50 b, R114). -/
def ReadInProgress (s : State) : Prop :=
  s.bus.selected = true → ∃ r next, s.fetch = .instruction r (.busRd next)

/-- A faulting command's fault is on record (R170). -/
def FaultOnRecord (s : State) : Prop := ∀ f, s.outcome = .fault f → f ∈ s.faults

/-- The status outputs are those of one command: at most one of them is 1 (R178), and a fault that is the latest outcome shows
its own (R170). -/
def StatusConsistent (s : State) : Prop :=
  s.st.vector ∈ [0b00000#5, 0b00001#5, 0b00010#5, 0b00100#5, 0b01000#5, 0b10000#5] ∧
    ∀ f, s.outcome = .fault f → s.st = faultStatus f

/-- What every step keeps. -/
structure Inv (s : State) : Prop where
  config : s.cfg.wellFormed = true
  bus : BusWellFormed s
  reading : ReadInProgress s
  record : FaultOnRecord s
  status : StatusConsistent s

/-- A run of device values for an averaged reading over the samples `raws` (R160): the device is ready with the next sample when
each read is made; every other value, before the other steps and after the last read, is `fill`'s. -/
def averageDraws (fill : Nat → Bool × Word) : Nat → List Word → List (Bool × Word)
  | k, [] => [fill k, fill (k + 1)]
  | k, raw :: rest => (true, raw) :: fill k :: fill (k + 1) :: fill (k + 2) :: averageDraws fill (k + 3) rest

end Sys2Proof.Machine
end

