-- ==== Sys2Proof/Certificates/Slice0/Obligations.lean ====
section
/-! DEFINITION. The statements for the provers. A command's outputs that no clause names are free (spec/10_state.md R39): nothing
is said of them, whatever the free values are. `Answered`, `Faulted`, `BlockFrame` and `BusFrame` (Safety.lean) say what a
command or a transaction leaves alone. -/

open Sys2Proof Sys2Proof.Machine

/-- R91. -/
def Obligations.CfgPackPlacesEveryField : Prop :=
  ∀ (ss : BitVec 1) (mux pga : BitVec 3) (mode : BitVec 1) (dr : BitVec 3) (ts pu : BitVec 1) (nop : BitVec 2) (s : State),
    (∃ t, exec (.cfgPack ss mux pga mode dr ts pu nop) s = .next t ∧ Answered s t Status.clear ∧
      t.out.y = (ss.zeroExtend 16 <<< 15) ||| (mux.zeroExtend 16 <<< 12) ||| (pga.zeroExtend 16 <<< 9) |||
        (mode.zeroExtend 16 <<< 8) ||| (dr.zeroExtend 16 <<< 5) ||| (ts.zeroExtend 16 <<< 4) |||
        (pu.zeroExtend 16 <<< 3) ||| (nop.zeroExtend 16 <<< 1) ||| s.cfg.packBit0.zeroExtend 16) ∧
    encode (.cfgPack ss mux pga mode dr ts pu nop) =
      .command ((0x0#4 ++ 0#5 ++ 0#3) ++ (ss ++ mux ++ pga ++ mode ++ dr ++ ts ++ pu ++ nop ++ 0#1)).toNat

/-- R92. -/
def Obligations.CfgUnpackSplitsTheWord : Prop :=
  ∀ (a : Word) (s : State),
    (∃ t, exec (.cfgUnpack a) s = .next t ∧ Answered s t Status.clear ∧
      t.out.q_ss = a.extractLsb 15 15 ∧ t.out.q_mux = a.extractLsb 14 12 ∧ t.out.q_pga = a.extractLsb 11 9 ∧
      t.out.q_mode = a.extractLsb 8 8 ∧ t.out.q_dr = a.extractLsb 7 5 ∧ t.out.q_ts = a.extractLsb 4 4 ∧
      t.out.q_pu = a.extractLsb 3 3 ∧ t.out.q_nop = a.extractLsb 2 1 ∧ t.out.q_rsv = a.extractLsb 0 0) ∧
    encode (.cfgUnpack a) = .command (0x1#4 ++ 0#5 ++ 0#3 ++ a).toNat

/-- R93. -/
def Obligations.CfgBtstTestsTheBit : Prop :=
  ∀ (n : BitVec 5) (a : Word) (s : State),
    (∃ t, exec (.cfgBtst n a) s = .next t ∧
      Answered s t { Status.clear with st_oor := decide (16 ≤ n.toNat) } ∧
      t.out.yb = if n.toNat ≤ 15 then BitVec.ofBool (a.getLsbD n.toNat) else 0) ∧
    encode (.cfgBtst n a) = .command (0x2#4 ++ n ++ 0#3 ++ a).toNat

/-- R94. -/
def Obligations.CfgBsetSetsTheBit : Prop :=
  ∀ (n : BitVec 5) (a : Word) (s : State),
    (∃ t, exec (.cfgBset n a) s = .next t ∧
      Answered s t { Status.clear with st_oor := decide (16 ≤ n.toNat) } ∧
      t.out.y = if n.toNat ≤ 15 then a ||| (1#16 <<< n.toNat) else a) ∧
    encode (.cfgBset n a) = .command (0x3#4 ++ n ++ 0#3 ++ a).toNat

/-- R95. -/
def Obligations.CfgBclrClearsTheBit : Prop :=
  ∀ (n : BitVec 5) (a : Word) (s : State),
    (∃ t, exec (.cfgBclr n a) s = .next t ∧
      Answered s t { Status.clear with st_oor := decide (16 ≤ n.toNat) } ∧
      t.out.y = if n.toNat ≤ 15 then a &&& ~~~(1#16 <<< n.toNat) else a) ∧
    encode (.cfgBclr n a) = .command (0x4#4 ++ n ++ 0#3 ++ a).toNat

/-- R174: the three accessors end with `ok` beside the status. -/
def Obligations.BitIndexOutOfRangeIsFlagged : Prop :=
  ∀ (n : BitVec 5) (a : Word) (s : State), 16 ≤ n.toNat →
    (∃ t, exec (.cfgBtst n a) s = .next t ∧ t.outcome = .ok ∧ t.st.vector = 0b00010 ∧ t.faults = s.faults ∧ t.out.yb = 0) ∧
    (∃ t, exec (.cfgBset n a) s = .next t ∧ t.outcome = .ok ∧ t.st.vector = 0b00010 ∧ t.faults = s.faults ∧ t.out.y = a) ∧
    (∃ t, exec (.cfgBclr n a) s = .next t ∧ t.outcome = .ok ∧ t.st.vector = 0b00010 ∧ t.faults = s.faults ∧ t.out.y = a)

/-- R96, R173: a literal of the catalog or the fault; with the default catalog one index only, whose word is the one CFG.PACK
builds from the fields its name implies. -/
def Obligations.CfgPresetFetchesTheLiteral : Prop :=
  ∀ (n : BitVec 5) (s : State),
    (∀ w, s.cfg.presets.lookup n = some w →
      ∃ t, exec (.cfgPreset n) s = .next t ∧ Answered s t Status.clear ∧ t.out.y = w) ∧
    (s.cfg.presets.lookup n = none →
      ∃ t, exec (.cfgPreset n) s = .next t ∧ Faulted s t (.invalidPreset n) ∧ t.st.vector = 0b01000) ∧
    (s.cfg.presets = defaultPresets → s.cfg.presets.lookup n = if n = 0 then some 0xC38B else none) ∧
    (s.cfg.presets = defaultPresets → s.cfg.packBit0 = 1 →
      ∃ t u, exec (.cfgPreset 0) s = .next t ∧ exec (.cfgPack 1 4 1 1 4 0 1 1) s = .next u ∧ t.out.y = u.out.y) ∧
    encode (.cfgPreset n) = .command (0x5#4 ++ n ++ 0#3 ++ 0#16).toNat

/-- R97. -/
def Obligations.CfgSplitGivesTheTwoBytes : Prop :=
  ∀ (a : Word) (s : State),
    (∃ t, exec (.cfgSplit a) s = .next t ∧ Answered s t Status.clear ∧
      t.out.yh = a.extractLsb 15 8 ∧ t.out.yl = a.extractLsb 7 0) ∧
    encode (.cfgSplit a) = .command (0x6#4 ++ 0#5 ++ 0#3 ++ a).toNat

/-- R117: both bytes are zero-extended, and joining what CFG.SPLIT gives is the word again. -/
def Obligations.SmpJoinAssemblesTheSample : Prop :=
  (∀ (bh bl : Byte) (s : State),
    (∃ t, exec (.smpJoin bh bl) s = .next t ∧ Answered s t Status.clear ∧ t.out.y = bh ++ bl ∧
      t.out.y = (bh.zeroExtend 16 <<< 8) ||| bl.zeroExtend 16) ∧
    encode (.smpJoin bh bl) = .command ((0x7#4 ++ 0#5 ++ 0#3) ++ (bh ++ bl)).toNat) ∧
  ∀ (a : Word) (s : State), ∃ t u, exec (.cfgSplit a) s = .next t ∧
    exec (.smpJoin t.out.yh t.out.yl) t = .next u ∧ u.out.y = a

/-- R126. -/
def Obligations.SmpSextKeepsTheSignedValue : Prop :=
  ∀ (a : Word) (s : State),
    (∃ t, exec (.smpSext a) s = .next t ∧ Answered s t Status.clear ∧
      t.out.ys.toInt = (a.toNat : Int) - 65536 * (if a.getLsbD 15 then 1 else 0)) ∧
    encode (.smpSext a) = .command (0x8#4 ++ 0#5 ++ 0#3 ++ a).toNat

/-- R130: the float reading for the six selectors, with the constant formed as R129 says; the fault for the other two. -/
def Obligations.AdcScaleScalesTheSample : Prop :=
  ∀ (g : BitVec 3) (a : Word) (s : State),
    (∀ h : g.toNat < 6, ∃ t, exec (.adcScale g a) s = .next t ∧ Answered s t Status.clear ∧
      t.out.yf = fl s.cfg.flt (((a.toNat : Int) - 65536 * (if a.getLsbD 15 then 1 else 0) : Int) *
        (match s.cfg.ktab[g.toNat].kind with
        | .fs => fl s.cfg.flt (fl s.cfg.flt (literalValue s.cfg.ktab[g.toNat].literal) / 32768)
        | .ratio => fl s.cfg.flt (literalValue s.cfg.ktab[g.toNat].literal))) ∧
      (a = 0 → t.out.yf = 0)) ∧
    (6 ≤ g.toNat → ∃ t, exec (.adcScale g a) s = .next t ∧ Faulted s t (.invalidPga g)) ∧
    encode (.adcScale g a) = .command (0x9#4 ++ 0#5 ++ g ++ a).toNat

/-- ADC.MV of R133 and R134 in the terms of ADC.SCALE: the same scaled value, its ceiling, the low 16 bits, the flag. -/
def Obligations.AdcMvTakesTheCeiling : Prop :=
  ∀ (g : BitVec 3) (a : Word) (s : State),
    (g.toNat < 6 → ∃ t u, exec (.adcMv g a) s = .next t ∧ exec (.adcScale g a) s = .next u ∧
      Answered s t { Status.clear with st_ovf := decide (⌈u.out.yf⌉ < -32768 ∨ 32767 < ⌈u.out.yf⌉) } ∧
      (t.out.y.toNat : Int) = ⌈u.out.yf⌉ % 65536) ∧
    (6 ≤ g.toNat → ∃ t, exec (.adcMv g a) s = .next t ∧ Faulted s t (.invalidPga g)) ∧
    encode (.adcMv g a) = .command (0xA#4 ++ 0#5 ++ g ++ a).toNat

/-- R172. -/
def Obligations.InvalidPgaSelectorFaults : Prop :=
  ∀ (g : BitVec 3) (a : Word) (s : State), (g = 6 ∨ g = 7) →
    (∃ t, exec (.adcScale g a) s = .next t ∧ Faulted s t (.invalidPga g) ∧ t.st.vector = 0b00100) ∧
    (∃ t, exec (.adcMv g a) s = .next t ∧ Faulted s t (.invalidPga g) ∧ t.st.vector = 0b00100)

/-- R146, with the three negative paths as R147, R148 and R149 give them, in integers; the product is
rounded once, and is exact in binary32 and in binary64 (R151). -/
def Obligations.TmpDecDecodesEveryWord : Prop :=
  ∀ (a : Word) (s : State),
    (∃ t, exec (.tmpDec a) s = .next t ∧ Answered s t Status.clear ∧
      ∃ x : Rat, x =
        (if a.getLsbD 15 = false then ((a.toNat / 4 : Nat) : Rat)
          else match s.cfg.tempNegMode with
            | .scr15 => (((a.toNat - 32768) / 4 : Nat) : Rat) - 32768
            | .arith => ((((a.toNat : Int) - 65536) / 4 : Int) : Rat)
            | .bit16 => ((a.toNat / 4 : Nat) : Rat)) / 32 ∧
        t.out.yf = fl s.cfg.flt x ∧ ∀ f, s.cfg.flt = .ieee f → t.out.yf = x) ∧
    encode (.tmpDec a) = .command (0xB#4 ++ 0#5 ++ 0#3 ++ a).toNat

/-- R171: the four reserved op codes. -/
def Obligations.ReservedOpCodesFault : Prop :=
  ∀ s : State,
    (∃ t, exec .reservedC s = .next t ∧ Faulted s t (.illegalOp 0xC) ∧ t.st.vector = 0b00001) ∧
    (∃ t, exec .reservedD s = .next t ∧ Faulted s t (.illegalOp 0xD) ∧ t.st.vector = 0b00001) ∧
    (∃ t, exec .reservedE s = .next t ∧ Faulted s t (.illegalOp 0xE) ∧ t.st.vector = 0b00001) ∧
    (∃ t, exec .reservedF s = .next t ∧ Faulted s t (.illegalOp 0xF) ∧ t.st.vector = 0b00001) ∧
    encode .reservedC = .command 0xC000000 ∧ encode .reservedD = .command 0xD000000 ∧
    encode .reservedE = .command 0xE000000 ∧ encode .reservedF = .command 0xF000000

/-- R111, R112: the trace, the device-side write, and what is left alone; the two received bytes are discarded. -/
def Obligations.BusWrSendsTwoBytes : Prop :=
  ∀ (w : Word) (s : State), s.bus.selected = false →
    (∃ t b₁ b₂, exec (.busWr w) s = .next t ∧ BusFrame s t ∧ t.dev = s.dev.write w ∧ t.program = s.program.tail ∧
      t.bus.selected = false ∧ t.bus.rxHigh = s.bus.rxHigh ∧ t.bus.rxLow = s.bus.rxLow ∧
      t.bus.trace = s.bus.trace ++
        [.selectAssert, .exchange (w.extractLsb 15 8) b₁, .exchange (w.extractLsb 7 0) b₂, .selectDeassert]) ∧
    encode (.busWr w) = .transaction .write [w.extractLsb 15 8, w.extractLsb 7 0]

/-- R119: no move inside another transaction. That BUS.WR stops with a fault of its own name there is the model's choice (log
entry 6). -/
def Obligations.BusWrHasNoMoveInsideAnotherTransaction : Prop :=
  ∀ (w : Word) (s : State), s.bus.selected = true → exec (.busWr w) s = .fault .busInUse

/-- R113, R115: the device is ready; the sample comes back and the word sent is a device-side write. That a completed read also
ends the wait for a requested conversion is the model's reading (log entry 5). -/
def Obligations.BusRdReturnsTheSample : Prop :=
  ∀ (next : Word) (s : State), s.dev.ready = true →
    (∃ t, exec (.busRd next) s = .next t ∧ BusFrame s t ∧ t.program = s.program.tail ∧
      t.bus.rxHigh = s.dev.conv.extractLsb 15 8 ∧ t.bus.rxLow = s.dev.conv.extractLsb 7 0 ∧
      t.dev = Device.write { s.dev with pending := false } next ∧ t.bus.selected = false ∧
      t.bus.trace = s.bus.trace ++ (if s.bus.selected then [] else [.selectAssert]) ++
        [.poll true, .exchange (next.extractLsb 15 8) (s.dev.conv.extractLsb 15 8),
          .exchange (next.extractLsb 7 0) (s.dev.conv.extractLsb 7 0), .selectDeassert]) ∧
    encode (.busRd next) = .transaction .read [next.extractLsb 15 8, next.extractLsb 7 0]

/-- R114: while the device is not ready the poll is repeated, and `DevWrite` is not applied. -/
def Obligations.BusRdWaitsWhileNotReady : Prop :=
  ∀ (next : Word) (s : State), s.dev.ready = false →
    ∃ t, exec (.busRd next) s = .next t ∧ BusFrame s t ∧ t.program = s.program ∧ t.dev = s.dev ∧
      t.bus.selected = true ∧ t.bus.rxHigh = s.bus.rxHigh ∧ t.bus.rxLow = s.bus.rxLow ∧
      t.bus.trace = s.bus.trace ++ (if s.bus.selected then [] else [.selectAssert]) ++ [.poll false]

/-- R114: a device that never reports ready holds the host in the same read for ever, with no fault and no value. -/
def Obligations.NeverReadyReadHangs : Prop :=
  ∀ (r : Request) (next : Word) (s : State) (convs : List Word),
    s.fetch = .instruction r (.busRd next) → s.dev.ready = false →
    ∃ t, runWith (convs.map fun c => (false, c)) s = .next t ∧ t.fetch = .instruction r (.busRd next) ∧
      t.program = s.program ∧ t.out = s.out ∧ t.faults = s.faults ∧ t.dev.config = s.dev.config ∧
      t.dev.requests = s.dev.requests ∧ t.bus.rxHigh = s.bus.rxHigh ∧ t.bus.rxLow = s.bus.rxLow ∧
      (convs ≠ [] → t.bus.trace = s.bus.trace ++ (if s.bus.selected then [] else [.selectAssert]) ++
        List.replicate convs.length (.poll false))

/-- R113, R114: however often the poll found the device not ready, the read ends in the first step in which it is ready, with the
sample the device then holds. -/
def Obligations.ReadEndsOnceReady : Prop :=
  ∀ (r : Request) (next raw : Word) (s : State) (convs : List Word) (d : Bool × Word),
    s.fetch = .instruction r (.busRd next) → s.dev.ready = false →
    ∃ t, runWith ((convs.map fun c => (false, c)) ++ [(true, raw), d]) s = .next t ∧ t.program = s.program.tail ∧
      t.out = s.out ∧ t.dev.config = (s.dev.write next).config ∧ t.dev.requests = (s.dev.write next).requests ∧
      t.bus.rxHigh = raw.extractLsb 15 8 ∧ t.bus.rxLow = raw.extractLsb 7 0 ∧ t.bus.selected = false ∧
      t.bus.trace = s.bus.trace ++ (if s.bus.selected then [] else [.selectAssert]) ++
        List.replicate (convs.length + 1) (.poll false) ++
        [.poll true, .exchange (next.extractLsb 15 8) (raw.extractLsb 15 8),
          .exchange (next.extractLsb 7 0) (raw.extractLsb 7 0), .selectDeassert]

/-- R31, R28: the device-side write. That a latching start request makes `pending` true is the model's reading (log entry 5). -/
def Obligations.DevWriteLatchesOnlyUnderTheNopPattern : Prop :=
  ∀ (d : Device) (w : Word),
    (w.extractLsb 2 1 = 0b01#2 →
      (d.write w).config = w.extractLsb 14 3 ∧
      (w.getLsbD 15 = true → (d.write w).pending = true ∧ (d.write w).requests = d.requests + 1) ∧
      (w.getLsbD 15 = false → (d.write w).pending = d.pending ∧ (d.write w).requests = d.requests)) ∧
    (w.extractLsb 2 1 ≠ 0b01#2 → d.write w = { d with latched := false }) ∧
    (d.write w).conv = d.conv ∧ (d.write w).ready = d.ready

/-- R53: which writes may be repeated. -/
def Obligations.OnlyAStartRequestIsNotIdempotent : Prop :=
  ∀ (d : Device) (w : Word), w.extractLsb 2 1 = 0b01#2 →
    ((d.write w).write w).config = (d.write w).config ∧
    (w.getLsbD 15 = false → (d.write w).write w = d.write w) ∧
    (w.getLsbD 15 = true → ((d.write w).write w).requests = (d.write w).requests + 1)

/-- R29, R75: bit 0 reads as 1 and is ignored on a write. The argument values stand for what SS and NOP read as, which the spec
leaves open (R26, R28). -/
def Obligations.DeviceBitZeroIsHardwired : Prop :=
  ∀ (d : Device) (w : Word) (ss : BitVec 1) (nop : BitVec 2),
    (d.configWord ss nop).getLsbD 0 = true ∧ d.write (w ^^^ 1) = d.write w ∧
    (w.extractLsb 2 1 = 0b01#2 → ((d.write w).configWord ss nop).extractLsb 14 3 = w.extractLsb 14 3 ∧
      (d.write w).mux = w.extractLsb 14 12 ∧ (d.write w).pga = w.extractLsb 11 9 ∧ (d.write w).mode = w.extractLsb 8 8 ∧
      (d.write w).dr = w.extractLsb 7 5 ∧ (d.write w).tsMode = w.extractLsb 4 4 ∧ (d.write w).pullUp = w.extractLsb 3 3)

/-- R98. -/
def Obligations.UnpackOfPackReturnsTheFields : Prop :=
  ∀ (ss : BitVec 1) (mux pga : BitVec 3) (mode : BitVec 1) (dr : BitVec 3) (ts pu : BitVec 1) (nop : BitVec 2) (s : State),
    ∃ t u, exec (.cfgPack ss mux pga mode dr ts pu nop) s = .next t ∧ exec (.cfgUnpack t.out.y) t = .next u ∧
      u.out.q_ss = ss ∧ u.out.q_mux = mux ∧ u.out.q_pga = pga ∧ u.out.q_mode = mode ∧ u.out.q_dr = dr ∧ u.out.q_ts = ts ∧
      u.out.q_pu = pu ∧ u.out.q_nop = nop ∧ u.out.q_rsv = s.cfg.packBit0

/-- R100. -/
def Obligations.PackOfUnpackForcesBitZero : Prop :=
  ∀ (w : Word) (s : State), ∃ t u, exec (.cfgUnpack w) s = .next t ∧
    exec (.cfgPack t.out.q_ss t.out.q_mux t.out.q_pga t.out.q_mode t.out.q_dr t.out.q_ts t.out.q_pu t.out.q_nop) t = .next u ∧
    u.out.y = (w &&& 0xFFFE) ||| s.cfg.packBit0.zeroExtend 16

/-- R99. -/
def Obligations.BitAccessorsObeyTheirLaws : Prop :=
  ∀ (n : BitVec 5) (a : Word) (s : State), n.toNat ≤ 15 →
    ∃ t u, exec (.cfgBset n a) s = .next t ∧ exec (.cfgBclr n a) s = .next u ∧
      (∃ v, exec (.cfgBtst n t.out.y) t = .next v ∧ v.out.yb = 1) ∧
      (∃ v, exec (.cfgBtst n u.out.y) u = .next v ∧ v.out.yb = 0) ∧
      (∀ m, m ≠ n.toNat → t.out.y.getLsbD m = a.getLsbD m ∧ u.out.y.getLsbD m = a.getLsbD m) ∧
      (∃ v, exec (.cfgBclr n t.out.y) t = .next v ∧ v.out.y = u.out.y) ∧
      (∃ v w, exec (.cfgBtst n a) s = .next v ∧ exec (.cfgUnpack a) s = .next w ∧
        (n = 15 → v.out.yb = w.out.q_ss) ∧ (n = 8 → v.out.yb = w.out.q_mode) ∧ (n = 4 → v.out.yb = w.out.q_ts) ∧
        (n = 3 → v.out.yb = w.out.q_pu) ∧ (n = 0 → v.out.yb = w.out.q_rsv))

/-- R101, in every state whose catalog holds the one known preset (R38). -/
def Obligations.KnownPresetDecodesAsItsNameSays : Prop :=
  ∀ s : State, s.cfg.wellFormed = true →
    ∃ t u, exec (.cfgPreset 0) s = .next t ∧ exec (.cfgUnpack t.out.y) t = .next u ∧
      u.out.q_ss = 1 ∧ u.out.q_mux = 4 ∧ u.out.q_pga = 1 ∧ u.out.q_mode = 1 ∧ u.out.q_dr = 4 ∧ u.out.q_ts = 0 ∧
      u.out.q_pu = 1 ∧ u.out.q_nop = 0b01 ∧ u.out.q_rsv = 1

/-- R9: rounding is to the nearest value, ties to the even significand, in the two formats the spec gives values for. R9 does not
say what a number too large for the format becomes; that it is any one value from the largest number on is the model's choice
(log entry 7). -/
def Obligations.RoundingIsToTheNearestValue : Prop :=
  ∀ (f : IeeeFormat) (q : Rat),
    (|q| < overflowBound f →
      Representable (.ieee f) (fl (.ieee f) q) ∧
      (∀ v, Representable (.ieee f) v → |q - fl (.ieee f) q| ≤ |q - v|) ∧
      (∀ v, Representable (.ieee f) v → v ≠ fl (.ieee f) q → |q - v| = |q - fl (.ieee f) q| →
        ∃ m : Int, m % 2 = 0 ∧ fl (.ieee f) q = m * 2 ^ ulpExponent f q)) ∧
    (overflowBound f ≤ q → largest f ≤ fl (.ieee f) q) ∧ (q ≤ -overflowBound f → fl (.ieee f) q ≤ -largest f)

/-- R9: the three properties a claim may assume of any format. Beyond the largest number of an IEEE format, and for a format that
is neither of the two, what `fl` gives and what `Representable` means are the model's choice (log entry 7). -/
def Obligations.RoundingIsIdentityMonotoneAndOdd : Prop :=
  ∀ (f : FltFormat), (∀ q, Representable f q → fl f q = q) ∧ (∀ p q, p ≤ q → fl f p ≤ fl f q) ∧ (∀ q, fl f (-q) = -fl f q)

/-- R129: how the constants are formed, in any format; that the quotient by 32768 is exact in binary32 and in binary64 unless it
underflows or the literal overflows; and the constants of the default table. -/
def Obligations.GainConstantsAreFormedAsStated : Prop :=
  (∀ (f : FltFormat) (l : Literal), multiplier f ⟨.fs, l⟩ = fl f (fl f (literalValue l) / 32768) ∧
    multiplier f ⟨.ratio, l⟩ = fl f (literalValue l)) ∧
  (∀ (f : IeeeFormat) (l : Literal),
    literalValue l = 0 ∨ ((2 : Rat) ^ (minExponent f + 15) ≤ |literalValue l| ∧ |literalValue l| < overflowBound f) →
      multiplier (.ieee f) ⟨.fs, l⟩ = fl (.ieee f) (literalValue l) / 32768) ∧
  (∀ f : IeeeFormat, multiplier (.ieee f) defaultKtab[0] = 3 / 16 ∧ multiplier (.ieee f) defaultKtab[1] = 1 / 8 ∧
    multiplier (.ieee f) defaultKtab[2] = 1 / 16 ∧ multiplier (.ieee f) defaultKtab[3] = 1 / 32 ∧
    multiplier (.ieee f) defaultKtab[4] = 1 / 64) ∧
  encodeFloat .binary32 (multiplier (.ieee .binary32) defaultKtab[5]) = 0x40F9999A ∧
  encodeFloat .binary64 (multiplier (.ieee .binary64) defaultKtab[5]) = 0x401F333333333333

/-- A literal that is 0 or inside these bounds keeps every reading zero or inside the normal range of the format, so that neither
overflow nor underflow can arise (R129, R130). -/
def Obligations.ReadingsStayInsideTheFormat : Prop :=
  ∀ (f : IeeeFormat) (r : GainRow) (raw : Word),
    literalValue r.literal = 0 ∨ ((2 : Rat) ^ (minExponent f + 15) ≤ |literalValue r.literal| ∧
      |literalValue r.literal| ≤ 2 ^ (maxExponent f - 15)) →
    reading (.ieee f) r raw = 0 ∨
      ((2 : Rat) ^ minExponent f ≤ |reading (.ieee f) r raw| ∧ |reading (.ieee f) r raw| ≤ 2 ^ maxExponent f)

/-- R131: with the default table the readings of selectors 0 to 4 are the exact rationals, in binary32 and in binary64. -/
def Obligations.DefaultReadingsAreExact : Prop :=
  ∀ (g : BitVec 3) (a : Word) (s : State) (f : IeeeFormat), s.cfg.flt = .ieee f → s.cfg.ktab = defaultKtab → g.toNat ≤ 4 →
    ∃ t, exec (.adcScale g a) s = .next t ∧ t.outcome = .ok ∧
      t.out.yf = (a.toInt : Rat) *
        (if g = 0 then 3 / 16 else if g = 1 then 1 / 8 else if g = 2 then 1 / 16 else if g = 3 then 1 / 32 else 1 / 64)

/-- R132: the sample values of selector 5. -/
def Obligations.SelectorFiveReadsAsListed : Prop :=
  let r := defaultKtab[5]
  (encodeFloat .binary32 (reading (.ieee .binary32) r 1) = 0x40F9999A ∧ encodeFloat .binary64 (reading (.ieee .binary64) r 1) = 0x401F333333333333) ∧
  (reading (.ieee .binary32) r 5 = 39 ∧ reading (.ieee .binary64) r 5 = 39) ∧ (reading (.ieee .binary32) r 100 = 780 ∧ reading (.ieee .binary64) r 100 = 780) ∧
  (encodeFloat .binary32 (reading (.ieee .binary32) r 1234) = 0x461664CD ∧
    encodeFloat .binary64 (reading (.ieee .binary64) r 1234) = 0x40C2CC9999999999) ∧
  (encodeFloat .binary32 (reading (.ieee .binary32) r 0x7FFF) = 0x487997A7 ∧
    encodeFloat .binary64 (reading (.ieee .binary64) r 0x7FFF) = 0x410F32F4CCCCCCCD) ∧
  (encodeFloat .binary32 (reading (.ieee .binary32) r 0x8000) = 0xC879999A ∧
    encodeFloat .binary64 (reading (.ieee .binary64) r 0x8000) = 0xC10F333333333333)

/-- R133: the integer reading is the ceiling of the exact product with the exact multiplier, for every selector and every raw
word, in binary32 and in binary64. -/
def Obligations.IntegerReadingIsTheExactCeiling : Prop :=
  ∀ (g : BitVec 3) (a : Word) (s : State) (f : IeeeFormat), s.cfg.flt = .ieee f → s.cfg.ktab = defaultKtab →
    ∀ h : g.toNat < 6,
    ∃ t, exec (.adcMv g a) s = .next t ∧
      Answered s t (overflowStatus ⌈(a.toInt : Rat) * exactMultiplier defaultKtab[g.toNat]⌉) ∧
      t.out.y = BitVec.ofInt 16 ⌈(a.toInt : Rat) * exactMultiplier defaultKtab[g.toNat]⌉

/-- R134, R202: with the default table the integer reading overflows for selector 5 only, and exactly outside -4201..4200,
in binary32 and in binary64. -/
def Obligations.IntegerReadingOverflowsOnlyForSelectorFive : Prop :=
  ∀ (g : BitVec 3) (a : Word) (s : State) (f : IeeeFormat), s.cfg.flt = .ieee f → s.cfg.ktab = defaultKtab → g.toNat < 6 →
    ∃ t, exec (.adcMv g a) s = .next t ∧ (t.st.st_ovf = true ↔ g = 5 ∧ (4201 ≤ a.toInt ∨ a.toInt ≤ -4202))

/-- R135: the extremes of the integer reading, and of the float reading for selectors 0 to 4. -/
def Obligations.ExtremeReadingsAreAsListed : Prop :=
  (∀ f : IeeeFormat,
    reading (.ieee f) defaultKtab[0] 0x7FFF = 98301 / 16 ∧ reading (.ieee f) defaultKtab[0] 0x8000 = -6144 ∧
    reading (.ieee f) defaultKtab[1] 0x7FFF = 32767 / 8 ∧ reading (.ieee f) defaultKtab[1] 0x8000 = -4096 ∧
    reading (.ieee f) defaultKtab[2] 0x7FFF = 32767 / 16 ∧ reading (.ieee f) defaultKtab[2] 0x8000 = -2048 ∧
    reading (.ieee f) defaultKtab[3] 0x7FFF = 32767 / 32 ∧ reading (.ieee f) defaultKtab[3] 0x8000 = -1024 ∧
    reading (.ieee f) defaultKtab[4] 0x7FFF = 32767 / 64 ∧ reading (.ieee f) defaultKtab[4] 0x8000 = -512) ∧
  (∀ f : IeeeFormat,
    trunc16 (millivolts (.ieee f) defaultKtab[0] 0x7FFF) = 0x1800 ∧ trunc16 (millivolts (.ieee f) defaultKtab[0] 0x8000) = 0xE800 ∧
    trunc16 (millivolts (.ieee f) defaultKtab[1] 0x7FFF) = 0x1000 ∧ trunc16 (millivolts (.ieee f) defaultKtab[1] 0x8000) = 0xF000 ∧
    trunc16 (millivolts (.ieee f) defaultKtab[2] 0x7FFF) = 0x0800 ∧ trunc16 (millivolts (.ieee f) defaultKtab[2] 0x8000) = 0xF800 ∧
    trunc16 (millivolts (.ieee f) defaultKtab[3] 0x7FFF) = 0x0400 ∧ trunc16 (millivolts (.ieee f) defaultKtab[3] 0x8000) = 0xFC00 ∧
    trunc16 (millivolts (.ieee f) defaultKtab[4] 0x7FFF) = 0x0200 ∧ trunc16 (millivolts (.ieee f) defaultKtab[4] 0x8000) = 0xFE00 ∧
    trunc16 (millivolts (.ieee f) defaultKtab[5] 0x7FFF) = 0xE65F ∧ trunc16 (millivolts (.ieee f) defaultKtab[5] 0x8000) = 0x199A)

/-- R137 e and d: the ceiling lies less than one above the scaled value and never below it, and zero stays zero. -/
def Obligations.CeilingIsUpwardForBothSigns : Prop :=
  ∀ (f : FltFormat) (r : GainRow) (raw : Word),
    reading f r raw ≤ millivolts f r raw ∧ (millivolts f r raw : Rat) < reading f r raw + 1 ∧ millivolts f r 0 = 0

/-- R150: the fixed offsets between the three modes on a word with bit 15 set, in codes in any format and in degrees where the
reading is exact (R151), and their agreement on the others. -/
def Obligations.TemperatureModesDifferByFixedOffsets : Prop :=
  ∀ (a : Word) (s : State), ∃ t u v,
    exec (.tmpDec a) { s with cfg := { s.cfg with tempNegMode := .scr15 } } = .next t ∧
    exec (.tmpDec a) { s with cfg := { s.cfg with tempNegMode := .arith } } = .next u ∧
    exec (.tmpDec a) { s with cfg := { s.cfg with tempNegMode := .bit16 } } = .next v ∧
    (a.getLsbD 15 = true → temperatureCode .scr15 a = temperatureCode .arith a - 24576 ∧
      temperatureCode .bit16 a = temperatureCode .arith a + 16384 ∧
      ∀ f, s.cfg.flt = .ieee f → t.out.yf = u.out.yf - 768 ∧ v.out.yf = u.out.yf + 512) ∧
    (a.getLsbD 15 = false → t.out.yf = u.out.yf ∧ v.out.yf = u.out.yf)

/-- R151, R152: the padding bits do not matter, in any mode and format; the range of the reading and that it is a value of the
format, in binary32 and in binary64. -/
def Obligations.TemperatureIsBoundedAndIgnoresPadding : Prop :=
  ∀ (a : Word) (s : State), ∃ t u, exec (.tmpDec a) s = .next t ∧ exec (.tmpDec (a &&& 0xFFFC)) s = .next u ∧
    t.out.yf = u.out.yf ∧
    ∀ f, s.cfg.flt = .ieee f → -1024 ≤ t.out.yf ∧ t.out.yf ≤ 16383 / 32 ∧ Representable s.cfg.flt t.out.yf

/-- R60, R68, R80: what is encoded is decoded, every operand at every value. -/
def Obligations.DecodeOfEncodeIsTheInstruction : Prop := ∀ i : Instr, decode (encode i) = .ok i

/-- R71, R76: bits 27:24 alone choose the operation, and the bits a command does not use do not matter: decoding and encoding
again leaves exactly the used bits. -/
def Obligations.OnlyUsedBitsOfACommandWordMatter : Prop :=
  ∀ cw : CommandWord,
    ∃ used : CommandWord, encodeCommandWord (decodeCommandWord cw) = some (cw &&& used) ∧
      used = (match (opField cw).toNat with
        | 0 => 0xF00FFFE#28
        | 2 | 3 | 4 => 0xFF8FFFF#28
        | 5 => 0xFF80000#28
        | 9 | 10 => 0xF07FFFF#28
        | 12 | 13 | 14 | 15 => 0xF000000#28
        | _ => 0xF00FFFF#28) ∧
      decodeCommandWord (cw &&& used) = decodeCommandWord cw

/-- R21, R45: an over-wide command word and a transaction that is not two bytes long are refused, by name. -/
def Obligations.IllFormedRequestsAreRefused : Prop :=
  ∀ (s : State) (rest : List HostItem),
    (∀ cw, 2 ^ 28 ≤ cw → s.program = .issue (.command cw) :: rest → step s = .refused (.rejected (.overWide cw))) ∧
    (∀ dir bytes, bytes.length ≠ 2 → s.program = .issue (.transaction dir bytes) :: rest →
      step s = .refused (.rejected (.transactionLength bytes.length)))

/-- Words written out from the encodings of R68, R72 and R80 decode to the instructions they stand for. -/
def Obligations.ListedWordsDecode : Prop :=
  decode (.command 0x000C38A) = .ok (.cfgPack 1 4 1 1 4 0 1 1) ∧ decode (.command 0x100C38B) = .ok (.cfgUnpack 0xC38B) ∧
  decode (.command 0x240C38B) = .ok (.cfgBtst 8 0xC38B) ∧ decode (.command 0x5F80000) = .ok (.cfgPreset 31) ∧
  decode (.command 0x70012FF) = .ok (.smpJoin 0x12 0xFF) ∧ decode (.command 0x9057FFF) = .ok (.adcScale 5 0x7FFF) ∧
  decode (.command 0xA077FFF) = .ok (.adcMv 7 0x7FFF) ∧ decode (.command 0xB00F380) = .ok (.tmpDec 0xF380) ∧
  decode (.command 0xFFFFFFF) = .ok .reservedF ∧ decode (.transaction .write [0xC3, 0x8B]) = .ok (.busWr 0xC38B) ∧
  decode (.transaction .read [0x43, 0x8B]) = .ok (.busRd 0x438B)

/-- R23, R50: a step runs the instruction the head of the host's list stands for, after its command word has driven the input
ports. That the host's order stands in a list in the state (log entry 8), and that the device then takes a fresh free ready level
and sample at the end of every step (log entry 14), are the model's choices. -/
def Obligations.StepRunsTheDecodedInstruction : Prop :=
  ∀ (s : State) (item : HostItem) (rest : List HostItem) (r : Request) (i : Instr),
    s.program = item :: rest → item.request s = some r → decode r = .ok i →
    step s = andThen (exec i (s.present r)) fun t =>
      t.deviceRuns (Config.freeReady s.draws) (Config.freeConv s.draws)

/-- R21, R68: the input ports hold the fields of the command word presented. R68 gives the operand field to `a`, to the two bytes or
to the eight fields, as the command takes it; that every command word drives all of these ports is the model's reading (log
entry 23). -/
def Obligations.CommandWordDrivesTheInputPorts : Prop :=
  ∀ (s t : State) (cw : CommandWord) (rest : List HostItem),
    s.program = .issue (.command cw.toNat) :: rest → step s = .next t →
    t.inp.op = cw.extractLsb 27 24 ∧ t.inp.n = cw.extractLsb 23 19 ∧ t.inp.g = cw.extractLsb 18 16 ∧
    t.inp.a = cw.extractLsb 15 0 ∧ t.inp.bh = cw.extractLsb 15 8 ∧ t.inp.bl = cw.extractLsb 7 0 ∧
    t.inp.f_ss = cw.extractLsb 15 15 ∧ t.inp.f_mux = cw.extractLsb 14 12 ∧ t.inp.f_pga = cw.extractLsb 11 9 ∧
    t.inp.f_mode = cw.extractLsb 8 8 ∧ t.inp.f_dr = cw.extractLsb 7 5 ∧ t.inp.f_ts = cw.extractLsb 4 4 ∧
    t.inp.f_pu = cw.extractLsb 3 3 ∧ t.inp.f_nop = cw.extractLsb 2 1

/-- R20, R41, R90: what a command may touch. Every command of the block ends in a next state, answered or faulted, and leaves the
device, the bus, the parameters and the averaging alone; a bus transaction leaves the ports of the block alone. -/
def Obligations.CommandsAndTransactionsKeepApart : Prop :=
  ∀ (i : Instr) (s : State),
    (isTransaction i = false →
      ∃ t, exec i s = .next t ∧ ((∃ v, Answered s t v) ∨ ∃ f, Faulted s t f)) ∧
    (isTransaction i = true → ∀ t, exec i s = .next t → BusFrame s t)

/-- R20, R24, R170: a command's named outputs, its status and its outcome depend on its inputs and on the parameters alone, so
nothing of an earlier command, faulting or not, is left in them. -/
def Obligations.ResultsDependOnInputsAndParametersOnly : Prop :=
  ∀ (i : Instr) (s₁ s₂ t₁ t₂ : State), isTransaction i = false → s₁.cfg = s₂.cfg →
    exec i s₁ = .next t₁ → exec i s₂ = .next t₂ →
    t₁.st = t₂.st ∧ t₁.outcome = t₂.outcome ∧ (t₁.outcome = .ok → namedOutputs i t₁.out = namedOutputs i t₂.out)

/-- R27, R41: the stored configuration changes only by a bus transaction whose word latches, and then it is that word's bits 14:3;
the parameters never change (R190). -/
def Obligations.ConfigurationChangesOnlyByALatchingTransaction : Prop :=
  ∀ s t : State, step s = .next t →
    t.cfg = s.cfg ∧
    (t.dev.config = s.dev.config ∨
      ∃ r w, (s.fetch = .instruction r (.busWr w) ∨ s.fetch = .instruction r (.busRd w)) ∧
        w.extractLsb 2 1 = 0b01#2 ∧ t.dev.config = w.extractLsb 14 3)

/-- R170: a recorded fault stays on record; a step adds at most one. -/
def Obligations.FaultRecordOnlyGrows : Prop :=
  ∀ s t : State, step s = .next t →
    t.faults = s.faults ∨ ∃ f, t.faults = s.faults ++ [f] ∧ (t.outcome = .fault f ∨ t.avg.result = .fault f)

/-- The invariant holds after reset, under every well-formed choice of the parameters; that the status outputs are clear and no
fault is the latest outcome there is the model's choice (log entry 2). -/
def Obligations.ResetMeetsTheInvariant : Prop :=
  (∀ c : Config, c.wellFormed = true → Inv (State.resetWith c)) ∧ Inv State.reset

/-- The invariant is kept by every step from every state that meets it: the bus has seen whole two-byte transactions only, apart
from a read that is polling (R45, R112, R113); the select line is asserted only while that read is what the host does next (R47,
R50); faults are on record (R170); at most one status output is 1 (R178). -/
def Obligations.EveryStepKeepsTheInvariant : Prop :=
  ∀ s t : State, Inv s → step s = .next t → Inv t

/-- R35, R36, R190: what reset leaves. That the default parameter is 0x058B, that the outcome is `pending` and that the host's
list is empty are the model's choices (log entries 3, 2 and 8). -/
def Obligations.ResetLeavesTheDeviceAtTheParameter : Prop :=
  (∀ c : Config, (State.resetWith c).cfg = c ∧ (State.resetWith c).dev.config = c.devConfigReset.extractLsb 14 3 ∧
    (State.resetWith c).outcome = .pending ∧ (State.resetWith c).faults = [] ∧ (State.resetWith c).program = [] ∧
    (State.resetWith c).bus.selected = false ∧ (State.resetWith c).bus.trace = []) ∧
  State.reset.dev.mux = 0 ∧ State.reset.dev.pga = 2 ∧ State.reset.dev.mode = 1 ∧ State.reset.dev.dr = 4 ∧
  State.reset.dev.tsMode = 0 ∧ State.reset.dev.pullUp = 1

/-- An idle host: only the device runs (R23; that the step goes on is the model's choice, log entry 8). -/
def Obligations.IdleStepOnlyRunsTheDevice : Prop :=
  ∀ s : State, s.program = [] → ∃ t, step s = .next t ∧ t.cfg = s.cfg ∧ t.inp = s.inp ∧ t.out = s.out ∧ t.st = s.st ∧
    t.outcome = s.outcome ∧ t.faults = s.faults ∧ t.bus = s.bus ∧ t.program = s.program ∧ t.avg = s.avg ∧
    t.dev.config = s.dev.config ∧ t.dev.pending = s.dev.pending ∧ t.dev.requests = s.dev.requests ∧
    t.dev.latched = s.dev.latched

/-- R79: `WRITE.CFG w`. -/
def Obligations.WriteCfgWritesTheWord : Prop :=
  ∀ (w : Word) (s : State) (rest : List HostItem) (d₁ d₂ : Bool × Word), s.bus.selected = false →
    ∃ t b₁ b₂, runWith [d₁, d₂] { s with program := writeCfgItems w ++ rest } = .next t ∧ t.program = rest ∧
      t.dev.config = (s.dev.write w).config ∧ t.dev.requests = (s.dev.write w).requests ∧
      t.bus.trace = s.bus.trace ++
        [.selectAssert, .exchange (w.extractLsb 15 8) b₁, .exchange (w.extractLsb 7 0) b₂, .selectDeassert]

/-- R79: `READ.VOLT`, `READ.MV` and `READ.TEMP` convert the sample that the device held when it was polled ready. -/
def Obligations.ReadPseudoOperationsConvertTheSample : Prop :=
  ∀ (next raw : Word) (g : BitVec 3) (r : GainRow) (s : State) (rest : List HostItem) (d₂ d₃ d₄ : Bool × Word),
    gainRow s.cfg g = some r →
    (∃ t, runWith [(true, raw), d₂, d₃, d₄] { s with program := readVoltItems next g ++ rest } = .next t ∧
      t.program = rest ∧ t.out.yf = reading s.cfg.flt r raw ∧ t.dev.config = (s.dev.write next).config) ∧
    (∃ t, runWith [(true, raw), d₂, d₃, d₄] { s with program := readMvItems next g ++ rest } = .next t ∧
      t.program = rest ∧ t.out.y = trunc16 (millivolts s.cfg.flt r raw) ∧ t.dev.config = (s.dev.write next).config) ∧
    (∃ t, runWith [(true, raw), d₂, d₃, d₄] { s with program := readTempItems next ++ rest } = .next t ∧
      t.program = rest ∧ t.out.yf = temperature s.cfg.flt s.cfg.tempNegMode raw ∧
      t.dev.config = (s.dev.write next).config)

/-- R160, R161, R164: the averaged reading is the exact mean of the readings of `n` separate conversion reads; for the integer
variant either neighbour of a mean that is no integer. The premise on the device, which R114 asks a claim to name, stands in
`averageDraws`: it is ready, with the next sample, at the first poll of each read. -/
def Obligations.AveragedReadingIsTheMean : Prop :=
  ∀ (n : Nat) (g : BitVec 3) (next : Word) (v : AvgVariant) (r : GainRow) (raws : List Word) (fill : Nat → Bool × Word)
    (rest : List HostItem) (s : State), gainRow s.cfg g = some r → raws.length = n → 0 < n →
    ∃ t q, runWith (averageDraws fill 0 raws) { s with program := averageItems n g next v ++ rest } = .next t ∧
      t.program = rest ∧ t.faults = s.faults ∧ t.avg.result = .mean q ∧
      (v = .float → q = (raws.map (sampleReading s.cfg.flt r v)).sum / n) ∧
      (v = .integer → q = ⌊(raws.map (sampleReading s.cfg.flt r v)).sum / n⌋ ∨
        q = ⌈(raws.map (sampleReading s.cfg.flt r v)).sum / n⌉) ∧
      t.bus.trace.count .selectDeassert = s.bus.trace.count .selectDeassert + n

/-- R162, R205: a count of zero faults, before any read, and gives no value. -/
def Obligations.AverageOfNothingFaults : Prop :=
  ∀ (g : BitVec 3) (next : Word) (v : AvgVariant) (rest : List HostItem) (s : State) (d₁ d₂ : Bool × Word),
    ∃ t, runWith [d₁, d₂] { s with program := averageItems 0 g next v ++ rest } = .next t ∧
      t.avg.result = .fault .divideByZero ∧ t.faults = s.faults ++ [.divideByZero] ∧ t.bus = s.bus ∧ t.program = rest ∧
      t.st = s.st

/-- R163: with an invalid selector the averaged reading ends with that fault after its first read has taken place. -/
def Obligations.AverageWithInvalidSelectorFaultsAfterOneRead : Prop :=
  ∀ (n : Nat) (g : BitVec 3) (next raw : Word) (v : AvgVariant) (rest : List HostItem) (s : State)
    (d₂ d₃ d₄ d₅ : Bool × Word), (g = 6 ∨ g = 7) → 0 < n →
    ∃ t, runWith [(true, raw), d₂, d₃, d₄, d₅] { s with program := averageItems n g next v ++ rest } = .next t ∧
      t.avg.result = .fault (.invalidPga g) ∧ t.faults = s.faults ++ [.invalidPga g] ∧ t.program = rest ∧
      t.dev.config = (s.dev.write next).config ∧
      t.bus.trace.count .selectDeassert = s.bus.trace.count .selectDeassert + 1

/-- R62, R63, R64, R65: the default meaning of every code of MUX, PGA and DR, and the meaning of the codes of MODE, TS_MODE and
PULL_UP. The tables are the model's defaults where the spec marks them as general knowledge (log entry 10). -/
def Obligations.DefaultFieldMeanings : Prop :=
  (List.map (selectedInputs defaultConfig) [0, 1, 2, 3, 4, 5, 6, 7] =
    [⟨.ain0, .ain1⟩, ⟨.ain0, .ain3⟩, ⟨.ain1, .ain3⟩, ⟨.ain2, .ain3⟩, ⟨.ain0, .gnd⟩, ⟨.ain1, .gnd⟩, ⟨.ain2, .gnd⟩,
      ⟨.ain3, .gnd⟩]) ∧
  List.map (dataRate defaultConfig) [0, 1, 2, 3, 4, 5, 6, 7] = [8, 16, 32, 64, 128, 250, 475, 860] ∧
  List.map (fullScaleRange defaultConfig) [0, 1, 2, 3, 4, 5, 6, 7] =
    [some 6144, some 4096, some 2048, some 1024, some 512, some 256, none, none] ∧
  List.map conversionMode [0, 1] = [.continuous, .singleShot] ∧ List.map sensorMode [0, 1] = [.adc, .temperature] ∧
  List.map pullUpState [0, 1] = [.disabled, .enabled]
end

