-- ==== Sys2Proof/Laws/Decode.lean ====
section
/-! SUPPORT. What the bits of a field and of a command word are. -/

namespace Sys2Proof

theorem bitField_getLsbD {n : Nat} (x : BitVec n) (lo w i : Nat) :
    (bitField x lo w).getLsbD i = (decide (i < w) && x.getLsbD (lo + i)) := by
  simp [bitField, BitVec.getLsbD_extractLsb']

theorem commandWord_getLsbD (op : BitVec 4) (n : BitVec 5) (g : BitVec 3) (x : Word) (i : Nat) :
    (commandWord op n g x).getLsbD i =
      if i < 16 then x.getLsbD i else if i < 19 then g.getLsbD (i - 16) else if i < 24 then n.getLsbD (i - 19)
      else op.getLsbD (i - 24) := by
  have h : (commandWord op n g x).getLsbD i = ((op ++ n ++ g) ++ x).getLsbD i := rfl
  rw [h, BitVec.getLsbD_append, BitVec.getLsbD_append, BitVec.getLsbD_append]
  by_cases h1 : i < 16
  · simp [h1]
  · by_cases h2 : i < 19
    · have : i - 16 < 3 := by omega
      simp [h1, h2, this]
    · by_cases h3 : i < 24
      · have a : ¬ i - 16 < 3 := by omega
        have c : i - 16 - 3 = i - 19 := by omega
        simp [h1, h2, h3, a, c]
        intro d; omega
      · have a : ¬ i - 16 < 3 := by omega
        have b : ¬ i - 16 - 3 < 5 := by omega
        have c : i - 16 - 3 - 5 = i - 24 := by omega
        simp [h1, h2, h3, a, b, c]

@[simp] theorem opField_commandWord (op : BitVec 4) (n : BitVec 5) (g : BitVec 3) (x : Word) :
    opField (commandWord op n g x) = op := by
  apply BitVec.eq_of_getLsbD_eq
  intro i hi
  rw [opField, bitField_getLsbD, commandWord_getLsbD]
  simp [hi, show ¬ 24 + i < 16 by omega, show ¬ 24 + i < 19 by omega]

@[simp] theorem nField_commandWord (op : BitVec 4) (n : BitVec 5) (g : BitVec 3) (x : Word) :
    nField (commandWord op n g x) = n := by
  apply BitVec.eq_of_getLsbD_eq
  intro i hi
  rw [nField, bitField_getLsbD, commandWord_getLsbD]
  simp [hi, show ¬ 19 + i < 16 by omega, show 19 + i < 24 by omega]

@[simp] theorem gField_commandWord (op : BitVec 4) (n : BitVec 5) (g : BitVec 3) (x : Word) :
    gField (commandWord op n g x) = g := by
  apply BitVec.eq_of_getLsbD_eq
  intro i hi
  rw [gField, bitField_getLsbD, commandWord_getLsbD]
  simp [hi, show 16 + i < 19 by omega]

@[simp] theorem operandField_commandWord (op : BitVec 4) (n : BitVec 5) (g : BitVec 3) (x : Word) :
    operandField (commandWord op n g x) = x := by
  apply BitVec.eq_of_getLsbD_eq
  intro i hi
  rw [operandField, bitField_getLsbD, commandWord_getLsbD]
  simp [hi]

/-- The bits of an assembled word (R60, R70). -/
theorem packFields_getLsbD (ss : BitVec 1) (mux pga : BitVec 3) (mode : BitVec 1) (dr : BitVec 3) (ts pu : BitVec 1)
    (nop : BitVec 2) (b : BitVec 1) {i : Nat} (hi : i < 16) :
    (packFields ss mux pga mode dr ts pu nop b).getLsbD i =
      if i < 1 then b.getLsbD i else if i < 3 then nop.getLsbD (i - 1) else if i < 4 then pu.getLsbD (i - 3)
      else if i < 5 then ts.getLsbD (i - 4) else if i < 8 then dr.getLsbD (i - 5) else if i < 9 then mode.getLsbD (i - 8)
      else if i < 12 then pga.getLsbD (i - 9) else if i < 15 then mux.getLsbD (i - 12) else ss.getLsbD (i - 15) := by
  have h : (packFields ss mux pga mode dr ts pu nop b).getLsbD i =
      ((ss ++ mux ++ pga ++ mode ++ dr ++ ts ++ pu ++ nop) ++ b).getLsbD i := rfl
  rw [h]
  simp only [BitVec.getLsbD_append]
  interval_cases i <;> rfl

/-- The two bytes of a word, put together again (R44). -/
@[simp] theorem highByte_append_lowByte (w : Word) : highByte w ++ lowByte w = w := by
  apply BitVec.eq_of_getLsbD_eq
  intro i hi
  rw [BitVec.getLsbD_append, highByte, lowByte, bitField_getLsbD, bitField_getLsbD]
  by_cases h : i < 8
  · simp [h]
  · simp [h, show i - 8 < 8 by omega, show 8 + (i - 8) = i by omega]

@[simp] theorem highByte_append (bh bl : Byte) : highByte (bh ++ bl) = bh := by
  apply BitVec.eq_of_getLsbD_eq
  intro i hi
  rw [highByte, bitField_getLsbD, BitVec.getLsbD_append]
  simp [hi]

@[simp] theorem lowByte_append (bh bl : Byte) : lowByte (bh ++ bl) = bl := by
  apply BitVec.eq_of_getLsbD_eq
  intro i hi
  rw [lowByte, bitField_getLsbD, BitVec.getLsbD_append]
  simp [hi]

/-- A command word offered whole is decoded as it stands. -/
theorem decode_command_toNat (cw : CommandWord) : decode (.command cw.toNat) = .ok (decodeCommandWord cw) := by
  have h : cw.toNat < 2 ^ 28 := cw.isLt
  simp only [decode, if_pos h, BitVec.ofNat_toNat, BitVec.setWidth_eq]

/-- Decoding a command never gives a bus transaction, and the other way round. -/
theorem decode_busRd {r : Machine.Request} {next : Word} (h : decode r = .ok (.busRd next)) :
    ∃ hi lo, r = .transaction .read [hi, lo] ∧ next = hi ++ lo := by
  unfold decode at h
  split at h
  · split at h
    · simp only [Except.ok.injEq] at h
      unfold decodeCommandWord at h
      simp only at h
      split at h <;> simp [decodePackOperand] at h
    · cases h
  · unfold decodeTransaction at h
    split at h
    · split at h <;> simp_all
    · cases h

theorem decode_busWr {r : Machine.Request} {w : Word} (h : decode r = .ok (.busWr w)) :
    ∃ hi lo, r = .transaction .write [hi, lo] ∧ w = hi ++ lo := by
  unfold decode at h
  split at h
  · split at h
    · simp only [Except.ok.injEq] at h
      unfold decodeCommandWord at h
      simp only at h
      split at h <;> simp [decodePackOperand] at h
    · cases h
  · unfold decodeTransaction at h
    split at h
    · split at h <;> simp_all
    · cases h

end Sys2Proof
end

