-- ==== Sys2Proof/Laws/State.lean ====
section
/-! SUPPORT. One lemma per field per update of the state, each true by definition. -/

namespace Sys2Proof.Machine

section
variable (s : State)

@[simp] theorem State.retire_cfg : s.retire.cfg = s.cfg := rfl
@[simp] theorem State.retire_inp : s.retire.inp = s.inp := rfl
@[simp] theorem State.retire_out : s.retire.out = s.out := rfl
@[simp] theorem State.retire_st : s.retire.st = s.st := rfl
@[simp] theorem State.retire_outcome : s.retire.outcome = s.outcome := rfl
@[simp] theorem State.retire_faults : s.retire.faults = s.faults := rfl
@[simp] theorem State.retire_dev : s.retire.dev = s.dev := rfl
@[simp] theorem State.retire_bus : s.retire.bus = s.bus := rfl
@[simp] theorem State.retire_program : s.retire.program = s.program.tail := rfl
@[simp] theorem State.retire_avg : s.retire.avg = s.avg := rfl
@[simp] theorem State.retire_draws : s.retire.draws = s.draws := rfl

@[simp] theorem State.answer_cfg (set : OutPorts → OutPorts) (v : Status) : (s.answer set v).cfg = s.cfg := rfl
@[simp] theorem State.answer_inp (set : OutPorts → OutPorts) (v : Status) : (s.answer set v).inp = s.inp := rfl
@[simp] theorem State.answer_out (set : OutPorts → OutPorts) (v : Status) : (s.answer set v).out = set (Config.freeOutputs s.draws) := rfl
@[simp] theorem State.answer_st (set : OutPorts → OutPorts) (v : Status) : (s.answer set v).st = v := rfl
@[simp] theorem State.answer_outcome (set : OutPorts → OutPorts) (v : Status) : (s.answer set v).outcome = .ok := rfl
@[simp] theorem State.answer_faults (set : OutPorts → OutPorts) (v : Status) : (s.answer set v).faults = s.faults := rfl
@[simp] theorem State.answer_dev (set : OutPorts → OutPorts) (v : Status) : (s.answer set v).dev = s.dev := rfl
@[simp] theorem State.answer_bus (set : OutPorts → OutPorts) (v : Status) : (s.answer set v).bus = s.bus := rfl
@[simp] theorem State.answer_program (set : OutPorts → OutPorts) (v : Status) : (s.answer set v).program = s.program.tail := rfl
@[simp] theorem State.answer_avg (set : OutPorts → OutPorts) (v : Status) : (s.answer set v).avg = s.avg := rfl
@[simp] theorem State.answer_draws (set : OutPorts → OutPorts) (v : Status) : (s.answer set v).draws = s.draws + 1 := rfl

@[simp] theorem State.raise_cfg (f : CommandFault) : (s.raise f).cfg = s.cfg := rfl
@[simp] theorem State.raise_inp (f : CommandFault) : (s.raise f).inp = s.inp := rfl
@[simp] theorem State.raise_out (f : CommandFault) : (s.raise f).out = Config.freeOutputs s.draws := rfl
@[simp] theorem State.raise_st (f : CommandFault) : (s.raise f).st = faultStatus f := rfl
@[simp] theorem State.raise_outcome (f : CommandFault) : (s.raise f).outcome = .fault f := rfl
@[simp] theorem State.raise_faults (f : CommandFault) : (s.raise f).faults = s.faults ++ [f] := rfl
@[simp] theorem State.raise_dev (f : CommandFault) : (s.raise f).dev = s.dev := rfl
@[simp] theorem State.raise_bus (f : CommandFault) : (s.raise f).bus = s.bus := rfl
@[simp] theorem State.raise_program (f : CommandFault) : (s.raise f).program = s.program.tail := rfl
@[simp] theorem State.raise_avg (f : CommandFault) : (s.raise f).avg = s.avg := rfl
@[simp] theorem State.raise_draws (f : CommandFault) : (s.raise f).draws = s.draws + 1 := rfl

@[simp] theorem State.note_cfg (e : BusEvent) : (s.note e).cfg = s.cfg := rfl
@[simp] theorem State.note_inp (e : BusEvent) : (s.note e).inp = s.inp := rfl
@[simp] theorem State.note_out (e : BusEvent) : (s.note e).out = s.out := rfl
@[simp] theorem State.note_st (e : BusEvent) : (s.note e).st = s.st := rfl
@[simp] theorem State.note_outcome (e : BusEvent) : (s.note e).outcome = s.outcome := rfl
@[simp] theorem State.note_faults (e : BusEvent) : (s.note e).faults = s.faults := rfl
@[simp] theorem State.note_dev (e : BusEvent) : (s.note e).dev = s.dev := rfl
@[simp] theorem State.note_bus (e : BusEvent) : (s.note e).bus = { s.bus with trace := s.bus.trace ++ [e] } := rfl
@[simp] theorem State.note_program (e : BusEvent) : (s.note e).program = s.program := rfl
@[simp] theorem State.note_avg (e : BusEvent) : (s.note e).avg = s.avg := rfl
@[simp] theorem State.note_draws (e : BusEvent) : (s.note e).draws = s.draws := rfl

@[simp] theorem State.selectAssert_cfg : s.selectAssert.cfg = s.cfg := rfl
@[simp] theorem State.selectAssert_inp : s.selectAssert.inp = s.inp := rfl
@[simp] theorem State.selectAssert_out : s.selectAssert.out = s.out := rfl
@[simp] theorem State.selectAssert_st : s.selectAssert.st = s.st := rfl
@[simp] theorem State.selectAssert_outcome : s.selectAssert.outcome = s.outcome := rfl
@[simp] theorem State.selectAssert_faults : s.selectAssert.faults = s.faults := rfl
@[simp] theorem State.selectAssert_dev : s.selectAssert.dev = s.dev := rfl
@[simp] theorem State.selectAssert_bus : s.selectAssert.bus = s.bus.assertSelect := rfl
@[simp] theorem State.selectAssert_program : s.selectAssert.program = s.program := rfl
@[simp] theorem State.selectAssert_avg : s.selectAssert.avg = s.avg := rfl
@[simp] theorem State.selectAssert_draws : s.selectAssert.draws = s.draws := rfl

@[simp] theorem State.selectDeassert_cfg : s.selectDeassert.cfg = s.cfg := rfl
@[simp] theorem State.selectDeassert_inp : s.selectDeassert.inp = s.inp := rfl
@[simp] theorem State.selectDeassert_out : s.selectDeassert.out = s.out := rfl
@[simp] theorem State.selectDeassert_st : s.selectDeassert.st = s.st := rfl
@[simp] theorem State.selectDeassert_outcome : s.selectDeassert.outcome = s.outcome := rfl
@[simp] theorem State.selectDeassert_faults : s.selectDeassert.faults = s.faults := rfl
@[simp] theorem State.selectDeassert_dev : s.selectDeassert.dev = s.dev := rfl
@[simp] theorem State.selectDeassert_bus : s.selectDeassert.bus = { s.bus with selected := false, trace := s.bus.trace ++ [.selectDeassert] } := rfl
@[simp] theorem State.selectDeassert_program : s.selectDeassert.program = s.program := rfl
@[simp] theorem State.selectDeassert_avg : s.selectDeassert.avg = s.avg := rfl
@[simp] theorem State.selectDeassert_draws : s.selectDeassert.draws = s.draws := rfl

@[simp] theorem State.poll_cfg : s.poll.cfg = s.cfg := rfl
@[simp] theorem State.poll_inp : s.poll.inp = s.inp := rfl
@[simp] theorem State.poll_out : s.poll.out = s.out := rfl
@[simp] theorem State.poll_st : s.poll.st = s.st := rfl
@[simp] theorem State.poll_outcome : s.poll.outcome = s.outcome := rfl
@[simp] theorem State.poll_faults : s.poll.faults = s.faults := rfl
@[simp] theorem State.poll_dev : s.poll.dev = s.dev := rfl
@[simp] theorem State.poll_bus : s.poll.bus = { s.bus with trace := s.bus.trace ++ [.poll s.dev.ready] } := rfl
@[simp] theorem State.poll_program : s.poll.program = s.program := rfl
@[simp] theorem State.poll_avg : s.poll.avg = s.avg := rfl
@[simp] theorem State.poll_draws : s.poll.draws = s.draws := rfl

@[simp] theorem State.exchange_cfg (tx rx : Byte) : (s.exchange tx rx).cfg = s.cfg := rfl
@[simp] theorem State.exchange_inp (tx rx : Byte) : (s.exchange tx rx).inp = s.inp := rfl
@[simp] theorem State.exchange_out (tx rx : Byte) : (s.exchange tx rx).out = s.out := rfl
@[simp] theorem State.exchange_st (tx rx : Byte) : (s.exchange tx rx).st = s.st := rfl
@[simp] theorem State.exchange_outcome (tx rx : Byte) : (s.exchange tx rx).outcome = s.outcome := rfl
@[simp] theorem State.exchange_faults (tx rx : Byte) : (s.exchange tx rx).faults = s.faults := rfl
@[simp] theorem State.exchange_dev (tx rx : Byte) : (s.exchange tx rx).dev = s.dev := rfl
@[simp] theorem State.exchange_bus (tx rx : Byte) : (s.exchange tx rx).bus = { s.bus with trace := s.bus.trace ++ [.exchange tx rx] } := rfl
@[simp] theorem State.exchange_program (tx rx : Byte) : (s.exchange tx rx).program = s.program := rfl
@[simp] theorem State.exchange_avg (tx rx : Byte) : (s.exchange tx rx).avg = s.avg := rfl
@[simp] theorem State.exchange_draws (tx rx : Byte) : (s.exchange tx rx).draws = s.draws := rfl

@[simp] theorem State.devWrite_cfg (w : Word) : (s.devWrite w).cfg = s.cfg := rfl
@[simp] theorem State.devWrite_inp (w : Word) : (s.devWrite w).inp = s.inp := rfl
@[simp] theorem State.devWrite_out (w : Word) : (s.devWrite w).out = s.out := rfl
@[simp] theorem State.devWrite_st (w : Word) : (s.devWrite w).st = s.st := rfl
@[simp] theorem State.devWrite_outcome (w : Word) : (s.devWrite w).outcome = s.outcome := rfl
@[simp] theorem State.devWrite_faults (w : Word) : (s.devWrite w).faults = s.faults := rfl
@[simp] theorem State.devWrite_dev (w : Word) : (s.devWrite w).dev = s.dev.write w := rfl
@[simp] theorem State.devWrite_bus (w : Word) : (s.devWrite w).bus = s.bus := rfl
@[simp] theorem State.devWrite_program (w : Word) : (s.devWrite w).program = s.program := rfl
@[simp] theorem State.devWrite_avg (w : Word) : (s.devWrite w).avg = s.avg := rfl
@[simp] theorem State.devWrite_draws (w : Word) : (s.devWrite w).draws = s.draws := rfl

@[simp] theorem State.sampleTaken_cfg : s.sampleTaken.cfg = s.cfg := rfl
@[simp] theorem State.sampleTaken_inp : s.sampleTaken.inp = s.inp := rfl
@[simp] theorem State.sampleTaken_out : s.sampleTaken.out = s.out := rfl
@[simp] theorem State.sampleTaken_st : s.sampleTaken.st = s.st := rfl
@[simp] theorem State.sampleTaken_outcome : s.sampleTaken.outcome = s.outcome := rfl
@[simp] theorem State.sampleTaken_faults : s.sampleTaken.faults = s.faults := rfl
@[simp] theorem State.sampleTaken_dev : s.sampleTaken.dev = { s.dev with pending := false } := rfl
@[simp] theorem State.sampleTaken_bus : s.sampleTaken.bus = s.bus := rfl
@[simp] theorem State.sampleTaken_program : s.sampleTaken.program = s.program := rfl
@[simp] theorem State.sampleTaken_avg : s.sampleTaken.avg = s.avg := rfl
@[simp] theorem State.sampleTaken_draws : s.sampleTaken.draws = s.draws := rfl

@[simp] theorem State.received_cfg (bh bl : Byte) : (s.received bh bl).cfg = s.cfg := rfl
@[simp] theorem State.received_inp (bh bl : Byte) : (s.received bh bl).inp = s.inp := rfl
@[simp] theorem State.received_out (bh bl : Byte) : (s.received bh bl).out = s.out := rfl
@[simp] theorem State.received_st (bh bl : Byte) : (s.received bh bl).st = s.st := rfl
@[simp] theorem State.received_outcome (bh bl : Byte) : (s.received bh bl).outcome = s.outcome := rfl
@[simp] theorem State.received_faults (bh bl : Byte) : (s.received bh bl).faults = s.faults := rfl
@[simp] theorem State.received_dev (bh bl : Byte) : (s.received bh bl).dev = s.dev := rfl
@[simp] theorem State.received_bus (bh bl : Byte) : (s.received bh bl).bus = { s.bus with rxHigh := bh, rxLow := bl } := rfl
@[simp] theorem State.received_program (bh bl : Byte) : (s.received bh bl).program = s.program := rfl
@[simp] theorem State.received_avg (bh bl : Byte) : (s.received bh bl).avg = s.avg := rfl
@[simp] theorem State.received_draws (bh bl : Byte) : (s.received bh bl).draws = s.draws := rfl

@[simp] theorem State.drewTwo_cfg : s.drewTwo.cfg = s.cfg := rfl
@[simp] theorem State.drewTwo_inp : s.drewTwo.inp = s.inp := rfl
@[simp] theorem State.drewTwo_out : s.drewTwo.out = s.out := rfl
@[simp] theorem State.drewTwo_st : s.drewTwo.st = s.st := rfl
@[simp] theorem State.drewTwo_outcome : s.drewTwo.outcome = s.outcome := rfl
@[simp] theorem State.drewTwo_faults : s.drewTwo.faults = s.faults := rfl
@[simp] theorem State.drewTwo_dev : s.drewTwo.dev = s.dev := rfl
@[simp] theorem State.drewTwo_bus : s.drewTwo.bus = s.bus := rfl
@[simp] theorem State.drewTwo_program : s.drewTwo.program = s.program := rfl
@[simp] theorem State.drewTwo_avg : s.drewTwo.avg = s.avg := rfl
@[simp] theorem State.drewTwo_draws : s.drewTwo.draws = s.draws + 2 := rfl

@[simp] theorem State.deviceRuns_cfg (ready : Bool) (conv : Word) : (s.deviceRuns ready conv).cfg = s.cfg := rfl
@[simp] theorem State.deviceRuns_inp (ready : Bool) (conv : Word) : (s.deviceRuns ready conv).inp = s.inp := rfl
@[simp] theorem State.deviceRuns_out (ready : Bool) (conv : Word) : (s.deviceRuns ready conv).out = s.out := rfl
@[simp] theorem State.deviceRuns_st (ready : Bool) (conv : Word) : (s.deviceRuns ready conv).st = s.st := rfl
@[simp] theorem State.deviceRuns_outcome (ready : Bool) (conv : Word) : (s.deviceRuns ready conv).outcome = s.outcome := rfl
@[simp] theorem State.deviceRuns_faults (ready : Bool) (conv : Word) : (s.deviceRuns ready conv).faults = s.faults := rfl
@[simp] theorem State.deviceRuns_dev (ready : Bool) (conv : Word) : (s.deviceRuns ready conv).dev = { s.dev with ready := ready, conv := conv } := rfl
@[simp] theorem State.deviceRuns_bus (ready : Bool) (conv : Word) : (s.deviceRuns ready conv).bus = s.bus := rfl
@[simp] theorem State.deviceRuns_program (ready : Bool) (conv : Word) : (s.deviceRuns ready conv).program = s.program := rfl
@[simp] theorem State.deviceRuns_avg (ready : Bool) (conv : Word) : (s.deviceRuns ready conv).avg = s.avg := rfl
@[simp] theorem State.deviceRuns_draws (ready : Bool) (conv : Word) : (s.deviceRuns ready conv).draws = s.draws + 1 := rfl

@[simp] theorem State.beginAverage_cfg : s.beginAverage.cfg = s.cfg := rfl
@[simp] theorem State.beginAverage_inp : s.beginAverage.inp = s.inp := rfl
@[simp] theorem State.beginAverage_out : s.beginAverage.out = s.out := rfl
@[simp] theorem State.beginAverage_st : s.beginAverage.st = s.st := rfl
@[simp] theorem State.beginAverage_outcome : s.beginAverage.outcome = s.outcome := rfl
@[simp] theorem State.beginAverage_faults : s.beginAverage.faults = s.faults := rfl
@[simp] theorem State.beginAverage_dev : s.beginAverage.dev = s.dev := rfl
@[simp] theorem State.beginAverage_bus : s.beginAverage.bus = s.bus := rfl
@[simp] theorem State.beginAverage_program : s.beginAverage.program = s.program.tail := rfl
@[simp] theorem State.beginAverage_avg : s.beginAverage.avg = { sum := 0, result := .pending } := rfl
@[simp] theorem State.beginAverage_draws : s.beginAverage.draws = s.draws := rfl

@[simp] theorem State.withRequest_cfg (r : Request) : (s.withRequest r).cfg = s.cfg := rfl
@[simp] theorem State.withRequest_inp (r : Request) : (s.withRequest r).inp = s.inp := rfl
@[simp] theorem State.withRequest_out (r : Request) : (s.withRequest r).out = s.out := rfl
@[simp] theorem State.withRequest_st (r : Request) : (s.withRequest r).st = s.st := rfl
@[simp] theorem State.withRequest_outcome (r : Request) : (s.withRequest r).outcome = s.outcome := rfl
@[simp] theorem State.withRequest_faults (r : Request) : (s.withRequest r).faults = s.faults := rfl
@[simp] theorem State.withRequest_dev (r : Request) : (s.withRequest r).dev = s.dev := rfl
@[simp] theorem State.withRequest_bus (r : Request) : (s.withRequest r).bus = s.bus := rfl
@[simp] theorem State.withRequest_program (r : Request) : (s.withRequest r).program = .issue r :: s.program := rfl
@[simp] theorem State.withRequest_avg (r : Request) : (s.withRequest r).avg = s.avg := rfl
@[simp] theorem State.withRequest_draws (r : Request) : (s.withRequest r).draws = s.draws := rfl

@[simp] theorem State.present_cfg (r : Request) : (s.present r).cfg = s.cfg := by cases r <;> rfl
@[simp] theorem State.present_out (r : Request) : (s.present r).out = s.out := by cases r <;> rfl
@[simp] theorem State.present_st (r : Request) : (s.present r).st = s.st := by cases r <;> rfl
@[simp] theorem State.present_outcome (r : Request) : (s.present r).outcome = s.outcome := by cases r <;> rfl
@[simp] theorem State.present_faults (r : Request) : (s.present r).faults = s.faults := by cases r <;> rfl
@[simp] theorem State.present_dev (r : Request) : (s.present r).dev = s.dev := by cases r <;> rfl
@[simp] theorem State.present_bus (r : Request) : (s.present r).bus = s.bus := by cases r <;> rfl
@[simp] theorem State.present_program (r : Request) : (s.present r).program = s.program := by cases r <;> rfl
@[simp] theorem State.present_avg (r : Request) : (s.present r).avg = s.avg := by cases r <;> rfl
@[simp] theorem State.present_draws (r : Request) : (s.present r).draws = s.draws := by cases r <;> rfl
@[simp] theorem State.present_command_inp (cw : Nat) :
    (s.present (.command cw)).inp = drivenPorts (BitVec.ofNat 28 cw) := rfl
@[simp] theorem State.present_transaction (dir : BusDir) (bytes : List Byte) :
    s.present (.transaction dir bytes) = s := rfl

@[simp] theorem State.addSample_cfg (v : AvgVariant) : (s.addSample v).cfg = s.cfg := by
  unfold State.addSample; split <;> rfl
@[simp] theorem State.addSample_inp (v : AvgVariant) : (s.addSample v).inp = s.inp := by
  unfold State.addSample; split <;> rfl
@[simp] theorem State.addSample_out (v : AvgVariant) : (s.addSample v).out = s.out := by
  unfold State.addSample; split <;> rfl
@[simp] theorem State.addSample_st (v : AvgVariant) : (s.addSample v).st = s.st := by
  unfold State.addSample; split <;> rfl
@[simp] theorem State.addSample_outcome (v : AvgVariant) : (s.addSample v).outcome = s.outcome := by
  unfold State.addSample; split <;> rfl
@[simp] theorem State.addSample_faults (v : AvgVariant) : (s.addSample v).faults = s.faults := by
  unfold State.addSample; split <;> rfl
@[simp] theorem State.addSample_dev (v : AvgVariant) : (s.addSample v).dev = s.dev := by
  unfold State.addSample; split <;> rfl
@[simp] theorem State.addSample_bus (v : AvgVariant) : (s.addSample v).bus = s.bus := by
  unfold State.addSample; split <;> rfl
@[simp] theorem State.addSample_draws (v : AvgVariant) : (s.addSample v).draws = s.draws := by
  unfold State.addSample; split <;> rfl

@[simp] theorem State.endAverage_cfg (n : Nat) (v : AvgVariant) : (s.endAverage n v).cfg = s.cfg := by
  unfold State.endAverage; split <;> rfl
@[simp] theorem State.endAverage_inp (n : Nat) (v : AvgVariant) : (s.endAverage n v).inp = s.inp := by
  unfold State.endAverage; split <;> rfl
@[simp] theorem State.endAverage_out (n : Nat) (v : AvgVariant) : (s.endAverage n v).out = s.out := by
  unfold State.endAverage; split <;> rfl
@[simp] theorem State.endAverage_st (n : Nat) (v : AvgVariant) : (s.endAverage n v).st = s.st := by
  unfold State.endAverage; split <;> rfl
@[simp] theorem State.endAverage_outcome (n : Nat) (v : AvgVariant) : (s.endAverage n v).outcome = s.outcome := by
  unfold State.endAverage; split <;> rfl
@[simp] theorem State.endAverage_dev (n : Nat) (v : AvgVariant) : (s.endAverage n v).dev = s.dev := by
  unfold State.endAverage; split <;> rfl
@[simp] theorem State.endAverage_bus (n : Nat) (v : AvgVariant) : (s.endAverage n v).bus = s.bus := by
  unfold State.endAverage; split <;> rfl
@[simp] theorem State.endAverage_program (n : Nat) (v : AvgVariant) : (s.endAverage n v).program = s.program.tail := by
  unfold State.endAverage; split <;> rfl

@[simp] theorem State.hostWork_cfg (item : HostItem) : (s.hostWork item).cfg = s.cfg := by
  cases item <;> simp [State.hostWork]
@[simp] theorem State.hostWork_inp (item : HostItem) : (s.hostWork item).inp = s.inp := by
  cases item <;> simp [State.hostWork]
@[simp] theorem State.hostWork_out (item : HostItem) : (s.hostWork item).out = s.out := by
  cases item <;> simp [State.hostWork]
@[simp] theorem State.hostWork_st (item : HostItem) : (s.hostWork item).st = s.st := by
  cases item <;> simp [State.hostWork]
@[simp] theorem State.hostWork_outcome (item : HostItem) : (s.hostWork item).outcome = s.outcome := by
  cases item <;> simp [State.hostWork]
@[simp] theorem State.hostWork_dev (item : HostItem) : (s.hostWork item).dev = s.dev := by
  cases item <;> simp [State.hostWork]
@[simp] theorem State.hostWork_bus (item : HostItem) : (s.hostWork item).bus = s.bus := by
  cases item <;> simp [State.hostWork]

end

@[simp] theorem Device.write_config (d : Device) (w : Word) :
    (d.write w).config = if latches w then bitField w 3 12 else d.config := rfl
@[simp] theorem Device.write_conv (d : Device) (w : Word) : (d.write w).conv = d.conv := rfl
@[simp] theorem Device.write_ready (d : Device) (w : Word) : (d.write w).ready = d.ready := rfl
@[simp] theorem Device.write_pending (d : Device) (w : Word) : (d.write w).pending = (d.pending || requestsConversion w) := rfl
@[simp] theorem Device.write_requests (d : Device) (w : Word) :
    (d.write w).requests = if requestsConversion w then d.requests + 1 else d.requests := rfl
@[simp] theorem Device.write_latched (d : Device) (w : Word) : (d.write w).latched = latches w := rfl

@[simp] theorem Bus.assertSelect_selected (b : Bus) : b.assertSelect.selected = true := by
  unfold Bus.assertSelect; split <;> simp_all
@[simp] theorem Bus.assertSelect_rxHigh (b : Bus) : b.assertSelect.rxHigh = b.rxHigh := by
  unfold Bus.assertSelect; split <;> rfl
@[simp] theorem Bus.assertSelect_rxLow (b : Bus) : b.assertSelect.rxLow = b.rxLow := by
  unfold Bus.assertSelect; split <;> rfl
theorem Bus.assertSelect_trace (b : Bus) :
    b.assertSelect.trace = if b.selected then b.trace else b.trace ++ [.selectAssert] := by
  unfold Bus.assertSelect; split <;> rfl

end Sys2Proof.Machine
end

