-- ==== Sys2Proof/Laws/Exec.lean ====
section
/-! SUPPORT. What each shared operation, each meaning and a step can do, said once. -/

namespace Sys2Proof.Machine

theorem exec_cfgPack_eq (ss : BitVec 1) (mux pga : BitVec 3) (mode : BitVec 1) (dr : BitVec 3) (ts pu : BitVec 1) (nop : BitVec 2)
    (s : State) : exec (.cfgPack ss mux pga mode dr ts pu nop) s = execCfgPack ss mux pga mode dr ts pu nop s := rfl
theorem exec_cfgUnpack_eq (a : Word) (s : State) : exec (.cfgUnpack a) s = execCfgUnpack a s := rfl
theorem exec_cfgBtst_eq (n : BitVec 5) (a : Word) (s : State) : exec (.cfgBtst n a) s = execCfgBtst n a s := rfl
theorem exec_cfgBset_eq (n : BitVec 5) (a : Word) (s : State) : exec (.cfgBset n a) s = execCfgBset n a s := rfl
theorem exec_cfgBclr_eq (n : BitVec 5) (a : Word) (s : State) : exec (.cfgBclr n a) s = execCfgBclr n a s := rfl
theorem exec_cfgPreset_eq (n : BitVec 5) (s : State) : exec (.cfgPreset n) s = execCfgPreset n s := rfl
theorem exec_cfgSplit_eq (a : Word) (s : State) : exec (.cfgSplit a) s = execCfgSplit a s := rfl
theorem exec_smpJoin_eq (bh bl : Byte) (s : State) : exec (.smpJoin bh bl) s = execSmpJoin bh bl s := rfl
theorem exec_smpSext_eq (a : Word) (s : State) : exec (.smpSext a) s = execSmpSext a s := rfl
theorem exec_adcScale_eq (g : BitVec 3) (a : Word) (s : State) : exec (.adcScale g a) s = execAdcScale g a s := rfl
theorem exec_adcMv_eq (g : BitVec 3) (a : Word) (s : State) : exec (.adcMv g a) s = execAdcMv g a s := rfl
theorem exec_tmpDec_eq (a : Word) (s : State) : exec (.tmpDec a) s = execTmpDec a s := rfl
theorem exec_reservedC_eq (s : State) : exec .reservedC s = execReservedC s := rfl
theorem exec_reservedD_eq (s : State) : exec .reservedD s = execReservedD s := rfl
theorem exec_reservedE_eq (s : State) : exec .reservedE s = execReservedE s := rfl
theorem exec_reservedF_eq (s : State) : exec .reservedF s = execReservedF s := rfl
theorem exec_busWr_eq (w : Word) (s : State) : exec (.busWr w) s = execBusWr w s := rfl
theorem exec_busRd_eq (next : Word) (s : State) : exec (.busRd next) s = execBusRd next s := rfl

theorem answer_answered (s : State) (set : OutPorts → OutPorts) (v : Status) : Answered s (s.answer set v) v :=
  ⟨⟨rfl, rfl, rfl, rfl, rfl⟩, rfl, rfl, rfl, rfl⟩

theorem raise_faulted (s : State) (f : CommandFault) : Faulted s (s.raise f) f :=
  ⟨⟨rfl, rfl, rfl, rfl, rfl⟩, rfl, rfl, rfl, rfl⟩

/-- The statuses a command can answer with: at most one output is 1 (R178). -/
def AnswerStatus (v : Status) : Prop :=
  v = Status.clear ∨ v = { Status.clear with st_oor := true } ∨ v = { Status.clear with st_ovf := true }

theorem answerStatus_bitIndex (n : BitVec 5) : AnswerStatus (bitIndexStatus n) := by
  unfold AnswerStatus bitIndexStatus
  cases indexOutOfRange n <;> simp [Status.clear]

theorem answerStatus_overflow (z : Int) : AnswerStatus (overflowStatus z) := by
  unfold AnswerStatus overflowStatus
  cases overflows16 z <;> simp [Status.clear]

/-- Everything a command of the block can do: it answers, or it raises. -/
theorem exec_command_cases {i : Instr} (hi : isTransaction i = false) (s : State) :
    (∃ set v, AnswerStatus v ∧ exec i s = .next (s.answer set v)) ∨ ∃ f, exec i s = .next (s.raise f) := by
  have clear : AnswerStatus Status.clear := .inl rfl
  cases i with
  | cfgPack => exact .inl ⟨_, _, clear, rfl⟩
  | cfgUnpack => exact .inl ⟨_, _, clear, rfl⟩
  | cfgBtst => exact .inl ⟨_, _, answerStatus_bitIndex _, rfl⟩
  | cfgBset => exact .inl ⟨_, _, answerStatus_bitIndex _, rfl⟩
  | cfgBclr => exact .inl ⟨_, _, answerStatus_bitIndex _, rfl⟩
  | cfgPreset n =>
    rw [exec_cfgPreset_eq, execCfgPreset]
    split
    · exact .inl ⟨_, _, clear, rfl⟩
    · exact .inr ⟨_, rfl⟩
  | cfgSplit => exact .inl ⟨_, _, clear, rfl⟩
  | smpJoin => exact .inl ⟨_, _, clear, rfl⟩
  | smpSext => exact .inl ⟨_, _, clear, rfl⟩
  | adcScale g a =>
    rw [exec_adcScale_eq, execAdcScale]
    split
    · exact .inl ⟨_, _, clear, rfl⟩
    · exact .inr ⟨_, rfl⟩
  | adcMv g a =>
    rw [exec_adcMv_eq, execAdcMv]
    split
    · exact .inl ⟨_, _, answerStatus_overflow _, rfl⟩
    · exact .inr ⟨_, rfl⟩
  | tmpDec => exact .inl ⟨_, _, clear, rfl⟩
  | reservedC => exact .inr ⟨_, rfl⟩
  | reservedD => exact .inr ⟨_, rfl⟩
  | reservedE => exact .inr ⟨_, rfl⟩
  | reservedF => exact .inr ⟨_, rfl⟩
  | busWr => simp [isTransaction] at hi
  | busRd => simp [isTransaction] at hi

/-- What BUS.WR leaves behind when the select line was free. -/
theorem exec_busWr {w : Word} {s t : State} (h : exec (.busWr w) s = .next t) :
    s.bus.selected = false ∧ BusFrame s t ∧ t.dev = s.dev.write w ∧ t.program = s.program.tail ∧
      t.bus.selected = false ∧ t.bus.rxHigh = s.bus.rxHigh ∧ t.bus.rxLow = s.bus.rxLow ∧
      t.bus.trace = s.bus.trace ++ [.selectAssert, .exchange (highByte w) (Config.freeByte s.draws),
        .exchange (lowByte w) (Config.freeByte (s.draws + 1)), .selectDeassert] := by
  rw [exec_busWr_eq, execBusWr] at h
  split at h
  · cases h
  · cases h
    rename_i hs
    simp only [Bool.not_eq_true] at hs
    refine ⟨hs, ⟨?_, ?_, ?_, ?_, ?_, ?_, ?_⟩, ?_, ?_, ?_, ?_, ?_, ?_⟩ <;> simp [Bus.assertSelect_trace, hs]

/-- What BUS.RD leaves behind: the transaction done, or the poll to be repeated. -/
theorem exec_busRd {next : Word} {s t : State} (h : exec (.busRd next) s = .next t) :
    BusFrame s t ∧ t.draws = s.draws ∧
    ((s.dev.ready = true ∧ t.dev = (Device.write { s.dev with pending := false } next) ∧ t.program = s.program.tail ∧
        t.bus.selected = false ∧ t.bus.rxHigh = highByte s.dev.conv ∧ t.bus.rxLow = lowByte s.dev.conv ∧
        t.bus.trace = s.bus.assertSelect.trace ++ [.poll true, .exchange (highByte next) (highByte s.dev.conv),
          .exchange (lowByte next) (lowByte s.dev.conv), .selectDeassert]) ∨
      (s.dev.ready = false ∧ t.dev = s.dev ∧ t.program = s.program ∧ t.bus.selected = true ∧
        t.bus.rxHigh = s.bus.rxHigh ∧ t.bus.rxLow = s.bus.rxLow ∧
        t.bus.trace = s.bus.assertSelect.trace ++ [.poll false])) := by
  rw [exec_busRd_eq, execBusRd] at h
  split at h
  · cases h
    rename_i hr
    refine ⟨⟨?_, ?_, ?_, ?_, ?_, ?_, ?_⟩, ?_, .inl ⟨hr, ?_, ?_, ?_, ?_, ?_, ?_⟩⟩ <;> simp [hr]
  · cases h
    rename_i hr
    simp only [Bool.not_eq_true] at hr
    refine ⟨⟨?_, ?_, ?_, ?_, ?_, ?_, ?_⟩, ?_, .inr ⟨hr, ?_, ?_, ?_, ?_, ?_, ?_⟩⟩ <;> simp [hr]

/-- Everything a step can do. -/
theorem stepWith_cases {ready : Bool} {conv : Word} {s t : State} (h : stepWith ready conv s = .next t) :
    (s.fetch = .idle ∧ t = s.deviceRuns ready conv) ∨
    (∃ item, s.fetch = .work item ∧ t = (s.hostWork item).deviceRuns ready conv) ∨
    (∃ r i u, s.fetch = .instruction r i ∧ exec i (s.present r) = .next u ∧ t = u.deviceRuns ready conv) := by
  unfold stepWith at h
  split at h
  · cases h; exact .inl ⟨by assumption, rfl⟩
  · cases h; exact .inr (.inl ⟨_, by assumption, rfl⟩)
  · rename_i r i hf
    unfold andThen at h
    split at h
    · cases h; exact .inr (.inr ⟨_, _, _, hf, by assumption, rfl⟩)
    · cases h
    · cases h
  · cases h

/-- Everything the fetch can find. -/
theorem fetch_cases (s : State) :
    (s.program = [] ∧ s.fetch = .idle) ∨
    ∃ item rest, s.program = item :: rest ∧
      ((item.request s = none ∧ s.fetch = .work item) ∨
       ∃ r, item.request s = some r ∧
        ((∃ i, decode r = .ok i ∧ s.fetch = .instruction r i) ∨ ∃ e, decode r = .error e ∧ s.fetch = .invalid e)) := by
  unfold State.fetch
  cases hp : s.program with
  | nil => exact .inl ⟨rfl, rfl⟩
  | cons item rest =>
    refine .inr ⟨item, rest, rfl, ?_⟩
    cases hr : item.request s with
    | none => exact .inl ⟨rfl, by simp [hr]⟩
    | some r =>
      refine .inr ⟨r, rfl, ?_⟩
      cases hd : decode r with
      | ok i => exact .inl ⟨i, rfl, by simp [hr, hd]⟩
      | error e => exact .inr ⟨e, rfl, by simp [hr, hd]⟩

end Sys2Proof.Machine
end

