-- ==== Sys2Proof/Laws/FloatFormat.lean ====
section
/-! SUPPORT. What carrying a rounding over to all numbers can do, and the two branches of `fl` for an IEEE format. -/

namespace Sys2Proof.Machine

@[simp] theorem oddly_zero (r : Rat → Rat) : oddly r 0 = 0 := by simp [oddly]

theorem oddly_pos (r : Rat → Rat) {q : Rat} (h : 0 < q) : oddly r q = r q := by simp [oddly, h.not_gt, h.ne']

theorem oddly_of_neg (r : Rat → Rat) {q : Rat} (h : q < 0) : oddly r q = -r (-q) := by simp [oddly, h]

theorem oddly_neg (r : Rat → Rat) (q : Rat) : oddly r (-q) = -oddly r q := by
  rcases lt_trichotomy q 0 with h | rfl | h
  · rw [oddly_of_neg r h, oddly_pos r (neg_pos.2 h), neg_neg]
  · simp
  · rw [oddly_pos r h, oddly_of_neg r (neg_neg_of_pos h), neg_neg]

theorem oddly_mono {r : Rat → Rat} (nonneg : ∀ q, 0 ≤ r q) (mono : Monotone r) : Monotone (oddly r) := by
  intro p q h
  rcases lt_trichotomy q 0 with hq | rfl | hq
  · rw [oddly_of_neg r hq, oddly_of_neg r (h.trans_lt hq)]
    exact neg_le_neg (mono (neg_le_neg h))
  · rcases h.lt_or_eq with hp | rfl
    · simpa [oddly_of_neg r hp] using nonneg (-p)
    · rfl
  · rw [oddly_pos r hq]
    rcases lt_trichotomy p 0 with hp | rfl | hp
    · rw [oddly_of_neg r hp]; linarith [nonneg q, nonneg (-p)]
    · simpa using nonneg q
    · rw [oddly_pos r hp]; exact mono h

theorem largest_nonneg (f : IeeeFormat) : 0 ≤ largest f := by
  cases f <;> simp only [largest, precision, maxExponent] <;> positivity

theorem overflowBound_pos (f : IeeeFormat) : 0 < overflowBound f := by
  cases f <;> decide +kernel

theorem largest_le_overflowValue (f : IeeeFormat) : largest f ≤ overflowValue f := by
  simp [overflowValue]

theorem fl_inRange {f : IeeeFormat} {q : Rat} (h : |q| < overflowBound f) : fl (.ieee f) q = roundNearest f q := by
  simp [fl, h]

theorem fl_overflow {f : IeeeFormat} {q : Rat} (h : overflowBound f ≤ |q|) :
    fl (.ieee f) q = oddly (fun _ => overflowValue f) q := by
  simp [fl, h]

@[simp] theorem fl_zero (f : FltFormat) : fl f 0 = 0 := by
  cases f with
  | ieee f => simp [fl_inRange (f := f) (q := 0) (by simpa using overflowBound_pos f), roundNearest, roundEven]
  | other n => simp [fl]

end Sys2Proof.Machine
end

