-- ==== Sys2Proof/Laws/PerInstr.lean ====
section
/-! SUPPORT. A property of every instruction as syntax, one lemma per constructor: its encoding is a well-formed request. -/

namespace Sys2Proof.Laws

/-- The request an instruction is encoded to fits its format (R45, R68). -/
def EncodesWellFormed.Statement (i : Instr) : Prop := (encode i).wellFormed = true

theorem EncodesWellFormed.cfgPack (ss : BitVec 1) (mux pga : BitVec 3) (mode : BitVec 1) (dr : BitVec 3) (ts pu : BitVec 1)
    (nop : BitVec 2) : EncodesWellFormed.Statement (.cfgPack ss mux pga mode dr ts pu nop) :=
  decide_eq_true (BitVec.isLt _)
theorem EncodesWellFormed.cfgUnpack (a : Word) : EncodesWellFormed.Statement (.cfgUnpack a) :=
  decide_eq_true (BitVec.isLt _)
theorem EncodesWellFormed.cfgBtst (n : BitVec 5) (a : Word) : EncodesWellFormed.Statement (.cfgBtst n a) :=
  decide_eq_true (BitVec.isLt _)
theorem EncodesWellFormed.cfgBset (n : BitVec 5) (a : Word) : EncodesWellFormed.Statement (.cfgBset n a) :=
  decide_eq_true (BitVec.isLt _)
theorem EncodesWellFormed.cfgBclr (n : BitVec 5) (a : Word) : EncodesWellFormed.Statement (.cfgBclr n a) :=
  decide_eq_true (BitVec.isLt _)
theorem EncodesWellFormed.cfgPreset (n : BitVec 5) : EncodesWellFormed.Statement (.cfgPreset n) :=
  decide_eq_true (BitVec.isLt _)
theorem EncodesWellFormed.cfgSplit (a : Word) : EncodesWellFormed.Statement (.cfgSplit a) :=
  decide_eq_true (BitVec.isLt _)
theorem EncodesWellFormed.smpJoin (bh bl : Byte) : EncodesWellFormed.Statement (.smpJoin bh bl) :=
  decide_eq_true (BitVec.isLt _)
theorem EncodesWellFormed.smpSext (a : Word) : EncodesWellFormed.Statement (.smpSext a) :=
  decide_eq_true (BitVec.isLt _)
theorem EncodesWellFormed.adcScale (g : BitVec 3) (a : Word) : EncodesWellFormed.Statement (.adcScale g a) :=
  decide_eq_true (BitVec.isLt _)
theorem EncodesWellFormed.adcMv (g : BitVec 3) (a : Word) : EncodesWellFormed.Statement (.adcMv g a) :=
  decide_eq_true (BitVec.isLt _)
theorem EncodesWellFormed.tmpDec (a : Word) : EncodesWellFormed.Statement (.tmpDec a) :=
  decide_eq_true (BitVec.isLt _)
theorem EncodesWellFormed.reservedC : EncodesWellFormed.Statement .reservedC := by
  unfold EncodesWellFormed.Statement; decide
theorem EncodesWellFormed.reservedD : EncodesWellFormed.Statement .reservedD := by
  unfold EncodesWellFormed.Statement; decide
theorem EncodesWellFormed.reservedE : EncodesWellFormed.Statement .reservedE := by
  unfold EncodesWellFormed.Statement; decide
theorem EncodesWellFormed.reservedF : EncodesWellFormed.Statement .reservedF := by
  unfold EncodesWellFormed.Statement; decide
theorem EncodesWellFormed.busWr (w : Word) : EncodesWellFormed.Statement (.busWr w) := rfl
theorem EncodesWellFormed.busRd (next : Word) : EncodesWellFormed.Statement (.busRd next) := rfl

end Sys2Proof.Laws
end

