-- ==== Sys2Proof/Tests/Slice0.lean ====
section
/-! SUPPORT. Small tests and the witnesses of the statements' hypotheses. The expected values are the spec's own: the worked
examples and vectors of spec/95_test_vectors.md, or words written out from the encoding tables of spec/30_encoding.md. -/

namespace Sys2Proof.Tests

open Sys2Proof.Machine

/-- The state an instruction leads to from `s`, if it leads to one. -/
def after (i : Instr) (s : State) : Option State :=
  match exec i s with
  | .next t => some t
  | .fault _ => none
  | .refused _ => none

/-- A device that is ready with the sample `raw`. -/
def readyWith (raw : Word) : State := { State.reset with dev := { State.reset.dev with ready := true, conv := raw } }

/-- A host that has a conversion read to do. -/
def reader (next : Word) : State := { State.reset with program := [.issue (.transaction .read (wireBytes next))] }

/-- The middle of a conversion read that has polled once. -/
def polling (next : Word) : State :=
  { reader next with bus := { State.reset.bus with selected := true, trace := [.selectAssert, .poll false] } }

/-! ## What is refused -/

theorem test_overWide_command_is_illFormed : (Request.command 0x10000000).wellFormed = false := by decide
theorem test_widest_command_is_wellFormed : (Request.command 0xFFFFFFF).wellFormed = true := by decide
theorem test_one_byte_transaction_is_illFormed : (Request.transaction .write [0xC3]).wellFormed = false := by decide
theorem test_three_byte_transaction_is_illFormed : (Request.transaction .read [0xC3, 0x8B, 0xC3]).wellFormed = false := by decide
theorem test_illFormed_item : (HostItem.issue (.command 0x10000000)).wellFormed = false := by decide
theorem test_catalog_without_the_known_preset : ({ defaultConfig with presets := [(1, 0xC38B)] } : Config).wellFormed = false := by
  decide
theorem test_catalog_with_another_word : ({ defaultConfig with presets := [(0, 0xC389)] } : Config).wellFormed = false := by
  decide

theorem test_decode_refuses_overWide : decode (.command 0x10000000) = .error (.overWide 0x10000000) := by decide
theorem test_decode_refuses_one_byte : decode (.transaction .read [0xC3]) = .error (.transactionLength 1) := by decide
theorem test_table_word_too_wide : decodeTableWord 32 0x10000000 = none := by decide

/-! ## Words written out field by field from R68, R72 and R80: op, n, g, operand -/

theorem test_decode_cfgPack :
    decodeCommandWord (0b0000#4 ++ 0b00000#5 ++ 0b000#3 ++ 0b1_100_001_1_100_0_1_01_0#16) = .cfgPack 1 4 1 1 4 0 1 1 := by decide
theorem test_decode_cfgPack_places_apart :
    decodeCommandWord (0b0000#4 ++ 0b00000#5 ++ 0b000#3 ++ 0b0_110_010_0_011_1_0_10_0#16) = .cfgPack 0 6 2 0 3 1 0 2 := by decide
theorem test_decode_cfgUnpack :
    decodeCommandWord (0b0001#4 ++ 0b00000#5 ++ 0b000#3 ++ 0b1100001110001011#16) = .cfgUnpack 0xC38B := by decide
theorem test_decode_cfgBtst :
    decodeCommandWord (0b0010#4 ++ 0b01000#5 ++ 0b000#3 ++ 0b1100001110001011#16) = .cfgBtst 8 0xC38B := by decide
theorem test_decode_cfgBset :
    decodeCommandWord (0b0011#4 ++ 0b00100#5 ++ 0b000#3 ++ 0b1100001110001011#16) = .cfgBset 4 0xC38B := by decide
theorem test_decode_cfgBclr :
    decodeCommandWord (0b0100#4 ++ 0b01111#5 ++ 0b000#3 ++ 0b1100001110001011#16) = .cfgBclr 15 0xC38B := by decide
theorem test_decode_cfgPreset :
    decodeCommandWord (0b0101#4 ++ 0b10001#5 ++ 0b000#3 ++ 0b0000000000000000#16) = .cfgPreset 17 := by decide
theorem test_decode_cfgSplit :
    decodeCommandWord (0b0110#4 ++ 0b00000#5 ++ 0b000#3 ++ 0b0000000011111111#16) = .cfgSplit 0x00FF := by decide
theorem test_decode_smpJoin :
    decodeCommandWord (0b0111#4 ++ 0b00000#5 ++ 0b000#3 ++ 0b00010010_00110100#16) = .smpJoin 0x12 0x34 := by decide
theorem test_decode_smpSext :
    decodeCommandWord (0b1000#4 ++ 0b00000#5 ++ 0b000#3 ++ 0b1000000000000001#16) = .smpSext 0x8001 := by decide
theorem test_decode_adcScale :
    decodeCommandWord (0b1001#4 ++ 0b00000#5 ++ 0b101#3 ++ 0b0111111111111111#16) = .adcScale 5 0x7FFF := by decide
theorem test_decode_adcMv :
    decodeCommandWord (0b1010#4 ++ 0b00000#5 ++ 0b001#3 ++ 0b1111111110011111#16) = .adcMv 1 0xFF9F := by decide
theorem test_decode_tmpDec :
    decodeCommandWord (0b1011#4 ++ 0b00000#5 ++ 0b000#3 ++ 0b1111001110000000#16) = .tmpDec 0xF380 := by decide
theorem test_decode_reservedC : decodeCommandWord (0b1100#4 ++ 0#24) = .reservedC := by decide
theorem test_decode_reservedD : decodeCommandWord (0b1101#4 ++ 0xABCDEF#24) = .reservedD := by decide
theorem test_decode_reservedE : decodeCommandWord (0b1110#4 ++ 0#24) = .reservedE := by decide
theorem test_decode_reservedF : decodeCommandWord (0b1111#4 ++ 0xFFFFFF#24) = .reservedF := by decide
theorem test_decode_busWr : decode (.transaction .write [0b11000011, 0b10001011]) = .ok (.busWr 0xC38B) := by decide
theorem test_decode_busRd : decode (.transaction .read [0b01000011, 0b10001011]) = .ok (.busRd 0x438B) := by decide

/-- R76: the pad bit of CFG.PACK's operand and the operand of CFG.PRESET do not matter. -/
theorem test_unused_bits : decodeCommandWord 0x000C38B = decodeCommandWord 0x000C38A ∧
    decodeCommandWord 0x500FFFF = decodeCommandWord 0x5000000 := by decide

theorem test_table_word_command : decodeTableWord 32 0x240C38B = some (.cfgBtst 8 0xC38B) := by decide
theorem test_table_word_wire : decodeTableWord 16 0xC38B = some (.busWr 0xC38B) := by decide
theorem test_fetch_of_a_placed_word :
    (State.reset.withFetchWord 32 0xA010061).fetch = .instruction (.command 0xA010061) (.adcMv 1 0x61) := by decide

/-! ## One step each: spec/95_test_vectors.md, sections 2.1 to 2.6 -/

theorem test_cfgPack : (after (.cfgPack 1 0 5 0 7 0 0 1) State.reset).map (fun t => (t.out.y, t.st.vector)) = some (0x8AE3, 0) := by
  decide
theorem test_cfgPack_packBit0_clear :
    (after (.cfgPack 1 4 1 1 4 0 1 1) { State.reset with cfg := { defaultConfig with packBit0 := 0 } }).map (·.out.y) =
      some 0xC38A := by decide
theorem test_cfgUnpack : (after (.cfgUnpack 0x4E6B) State.reset).map (fun t =>
      (t.out.q_ss, t.out.q_mux, t.out.q_pga, t.out.q_mode, t.out.q_dr, t.out.q_ts, t.out.q_pu, t.out.q_nop, t.out.q_rsv)) =
    some (0, 4, 7, 0, 3, 0, 1, 1, 1) := by decide
theorem test_cfgBtst : (after (.cfgBtst 4 0xC38B) State.reset).map (·.out.yb) = some 0 := by decide
theorem test_cfgBtst_16 : (after (.cfgBtst 16 0xFFFF) State.reset).map (fun t => (t.out.yb, t.st.vector)) = some (0, 0b00010) := by
  decide
theorem test_cfgBset : (after (.cfgBset 15 0x438B) State.reset).map (·.out.y) = some 0xC38B := by decide
theorem test_cfgBset_16 : (after (.cfgBset 16 0) State.reset).map (fun t => (t.out.y, t.st.vector)) = some (0, 0b00010) := by decide
theorem test_cfgBclr : (after (.cfgBclr 3 0xC38B) State.reset).map (·.out.y) = some 0xC383 := by decide
theorem test_cfgBclr_16 : (after (.cfgBclr 16 0xFFFF) State.reset).map (fun t => (t.out.y, t.st.vector)) =
    some (0xFFFF, 0b00010) := by decide
theorem test_cfgPreset : (after (.cfgPreset 0) State.reset).map (·.out.y) = some 0xC38B := by decide
theorem test_cfgPreset_unknown : (after (.cfgPreset 31) State.reset).map (fun t => (t.faults, t.st.vector)) =
    some ([.invalidPreset 31], 0b01000) := by decide
theorem test_cfgSplit : (after (.cfgSplit 0xC38B) State.reset).map (fun t => (t.out.yh, t.out.yl)) = some (0xC3, 0x8B) := by decide
theorem test_smpJoin : (after (.smpJoin 0x12 0x34) State.reset).map (·.out.y) = some 0x1234 := by decide
theorem test_smpJoin_low_byte_is_not_extended : (after (.smpJoin 0x00 0xFF) State.reset).map (·.out.y) = some 0x00FF := by decide
theorem test_smpSext_negative : (after (.smpSext 0x8000) State.reset).map (·.out.ys) = some 0xFFFF8000 := by decide
theorem test_smpSext_positive : (after (.smpSext 0x7FFF) State.reset).map (·.out.ys) = some 0x00007FFF := by decide
theorem test_adcScale : (after (.adcScale 0 0x7FFF) State.reset).map (·.out.yf) = some (6143.8125) := by decide +kernel
theorem test_adcScale_selector_five : (after (.adcScale 5 0x8000) State.reset).map (·.out.yf) = some (-255590.40625) := by
  decide +kernel
theorem test_adcMv : (after (.adcMv 1 0x0061) State.reset).map (·.out.y) = some 13 := by decide +kernel
theorem test_adcMv_overflow : (after (.adcMv 5 0xEF96) State.reset).map (fun t => (t.out.y, t.st.vector)) =
    some (0x7FF9, 0b10000) := by decide +kernel
theorem test_tmpDec : (after (.tmpDec 0x0C83) State.reset).map (·.out.yf) = some 25 := by decide +kernel
theorem test_tmpDec_negative : (after (.tmpDec 0xF380) State.reset).map (·.out.yf) = some (-793) := by decide +kernel
theorem test_reservedC : (after .reservedC State.reset).map (fun t => (t.faults, t.st.vector)) =
    some ([.illegalOp 0xC], 0b00001) := by decide
theorem test_reservedD : (after .reservedD State.reset).map (fun t => (t.faults, t.st.vector)) =
    some ([.illegalOp 0xD], 0b00001) := by decide
theorem test_reservedE : (after .reservedE State.reset).map (fun t => (t.faults, t.st.vector)) =
    some ([.illegalOp 0xE], 0b00001) := by decide
theorem test_reservedF : (after .reservedF State.reset).map (fun t => (t.outcome, t.st.vector)) =
    some (.fault (.illegalOp 0xF), 0b00001) := by decide
theorem test_busWr : (after (.busWr 0xC38B) State.reset).map (fun t => (t.dev.mux, t.dev.pga, t.dev.requests)) = some (4, 1, 1) := by
  decide
theorem test_busWr_noop : (after (.busWr 0xC389) State.reset).map (·.dev) = some State.reset.dev := by decide
theorem test_busRd : (after (.busRd 0xC38B) (readyWith 0x1234)).map (·.bus.trace) =
    some [.selectAssert, .poll true, .exchange 0xC3 0x12, .exchange 0x8B 0x34, .selectDeassert] := by decide
theorem test_busRd_not_ready : (after (.busRd 0xC38B) State.reset).map (fun t => (t.bus.trace, t.dev.requests)) =
    some ([.selectAssert, .poll false], 0) := by decide

/-! ## Witnesses: concrete values that meet the hypotheses of a statement, at the ends of each range -/

theorem witness_BitIndexOutOfRangeIsFlagged : 16 ≤ (16#5).toNat ∧ 16 ≤ (31#5).toNat := by decide
theorem witness_CfgPresetFetchesTheLiteral : State.reset.cfg.presets.lookup 0 = some 0xC38B ∧
    State.reset.cfg.presets.lookup 1 = none ∧ State.reset.cfg.presets.lookup 31 = none ∧
    State.reset.cfg.presets = defaultPresets ∧ State.reset.cfg.packBit0 = 1 := by decide
theorem witness_AdcScaleScalesTheSample : (0#3).toNat < 6 ∧ (5#3).toNat < 6 ∧ 6 ≤ (6#3).toNat ∧ 6 ≤ (7#3).toNat := by decide
theorem witness_AdcMvTakesTheCeiling : (0#3).toNat < 6 ∧ (5#3).toNat < 6 ∧ 6 ≤ (6#3).toNat ∧ 6 ≤ (7#3).toNat := by decide
theorem witness_InvalidPgaSelectorFaults : ((6 : BitVec 3) = 6 ∨ (6 : BitVec 3) = 7) ∧ ((7 : BitVec 3) = 6 ∨ (7 : BitVec 3) = 7) := by
  decide
theorem witness_BusWrSendsTwoBytes : State.reset.bus.selected = false := by decide
theorem witness_BusWrHasNoMoveInsideAnotherTransaction : (polling 0xC38B).bus.selected = true := by decide
theorem witness_BusRdReturnsTheSample : (readyWith 0x1234).dev.ready = true ∧
    ({ readyWith 0x1234 with bus := (polling 0xC38B).bus } : State).dev.ready = true := by decide
theorem witness_BusRdWaitsWhileNotReady : State.reset.dev.ready = false ∧ (polling 0xC38B).dev.ready = false := by decide
theorem witness_NeverReadyReadHangs :
    (reader 0xC38B).fetch = .instruction (.transaction .read [0xC3, 0x8B]) (.busRd 0xC38B) ∧ (reader 0xC38B).dev.ready = false ∧
    (polling 0xC38B).fetch = .instruction (.transaction .read [0xC3, 0x8B]) (.busRd 0xC38B) ∧
    (polling 0xC38B).dev.ready = false ∧ [0x1234#16] ≠ [] := by decide
theorem witness_ReadEndsOnceReady :
    (reader 0x438B).fetch = .instruction (.transaction .read [0x43, 0x8B]) (.busRd 0x438B) ∧
    (reader 0x438B).dev.ready = false := by decide
theorem witness_DevWriteLatchesOnlyUnderTheNopPattern :
    (0xC38B#16).extractLsb 2 1 = 0b01#2 ∧ (0xC38B#16).getLsbD 15 = true ∧ (0x438B#16).extractLsb 2 1 = 0b01#2 ∧
    (0x438B#16).getLsbD 15 = false ∧ (0xC389#16).extractLsb 2 1 ≠ 0b01#2 ∧ (0xC38D#16).extractLsb 2 1 ≠ 0b01#2 := by decide
theorem witness_OnlyAStartRequestIsNotIdempotent :
    (0xC38B#16).extractLsb 2 1 = 0b01#2 ∧ (0xC38B#16).getLsbD 15 = true ∧ (0x0002#16).extractLsb 2 1 = 0b01#2 ∧
    (0x0002#16).getLsbD 15 = false := by decide
theorem witness_DeviceBitZeroIsHardwired : (0x0002#16).extractLsb 2 1 = 0b01#2 ∧ (0xFFFB#16).extractLsb 2 1 = 0b01#2 := by decide
theorem witness_BitAccessorsObeyTheirLaws : (0#5).toNat ≤ 15 ∧ (15#5).toNat ≤ 15 ∧ (1 : Nat) ≠ (0#5).toNat := by decide
theorem witness_KnownPresetDecodesAsItsNameSays : State.reset.cfg.wellFormed = true ∧
    ({ State.reset with cfg := { defaultConfig with presets := [(7, 0x0001), (0, 0xC38B)], packBit0 := 0 } } : State).cfg.wellFormed =
      true := by decide
/-- A tie: 2^24 + 1 lies half way between 2^24 and 2^24 + 2. -/
theorem witness_RoundingIsToTheNearestValue : |(16777217 : Rat)| < overflowBound .binary32 ∧
    Representable (.ieee .binary32) 16777218 ∧ (16777218 : Rat) ≠ fl (.ieee .binary32) 16777217 ∧
    |(16777217 : Rat) - 16777218| = |16777217 - fl (.ieee .binary32) 16777217| ∧
    overflowBound .binary32 ≤ 2 ^ 128 - 2 ^ 103 ∧ (-(2 ^ 128 - 2 ^ 103) : Rat) ≤ -overflowBound .binary32 :=
  ⟨by decide +kernel, ⟨⟨8388609, 1, by decide +kernel, by decide, by decide +kernel⟩, by decide +kernel⟩, by decide +kernel,
    by decide +kernel, by decide +kernel, by decide +kernel⟩
theorem witness_RoundingIsIdentityMonotoneAndOdd : Representable (.other 0) 0 ∧ Representable (.ieee .binary32) (39 / 8) ∧
    Representable (.ieee .binary64) (largest .binary64) ∧ (78 / 10 : Rat) ≤ 79 / 10 :=
  ⟨rfl, ⟨⟨39, -3, by decide +kernel, by decide, by decide +kernel⟩, by decide +kernel⟩,
    ⟨⟨2 ^ 53 - 1, 971, by decide +kernel, by decide, by decide +kernel⟩, by decide +kernel⟩, by decide +kernel⟩
/-- The two ends: 2^-111 = 5^111 / 10^111, and the largest number of binary32. -/
theorem witness_GainConstantsAreFormedAsStated : literalValue ⟨0, 3⟩ = 0 ∧
    (2 : Rat) ^ (minExponent .binary32 + 15) ≤ |literalValue ⟨5 ^ 111, 111⟩| ∧
    |literalValue ⟨5 ^ 111, 111⟩| < overflowBound .binary32 ∧ |literalValue ⟨2 ^ 128 - 2 ^ 104, 0⟩| < overflowBound .binary32 := by
  decide +kernel
theorem witness_ReadingsStayInsideTheFormat : literalValue ⟨0, 0⟩ = 0 ∧
    (2 : Rat) ^ (minExponent .binary32 + 15) ≤ |literalValue ⟨-5 ^ 111, 111⟩| ∧
    |literalValue ⟨-5 ^ 111, 111⟩| ≤ (2 : Rat) ^ (maxExponent .binary32 - 15) ∧
    |literalValue ⟨2 ^ 112, 0⟩| ≤ (2 : Rat) ^ (maxExponent .binary32 - 15) := by decide +kernel
theorem witness_DefaultReadingsAreExact : State.reset.cfg.flt = .ieee .binary32 ∧ State.reset.cfg.ktab = defaultKtab ∧ (0#3).toNat ≤ 4 ∧ (4#3).toNat ≤ 4 := by decide
theorem witness_IntegerReadingIsTheExactCeiling : State.reset.cfg.flt = .ieee .binary32 ∧ State.reset.cfg.ktab = defaultKtab ∧ (0#3).toNat < 6 ∧ (5#3).toNat < 6 := by
  decide
theorem witness_IntegerReadingOverflowsOnlyForSelectorFive : State.reset.cfg.flt = .ieee .binary32 ∧ State.reset.cfg.ktab = defaultKtab ∧ (5#3).toNat < 6 ∧
    4201 ≤ (0x1069#16).toInt ∧ (0xEF96#16).toInt ≤ -4202 := by decide
theorem witness_TemperatureModesDifferByFixedOffsets : State.reset.cfg.flt = .ieee .binary32 ∧ (0x8000#16).getLsbD 15 = true ∧ (0x7FFF#16).getLsbD 15 = false := by decide
theorem witness_TmpDecDecodesEveryWord : State.reset.cfg.flt = .ieee .binary32 := by decide
theorem witness_TemperatureIsBoundedAndIgnoresPadding : State.reset.cfg.flt = .ieee .binary32 := by decide
theorem witness_IllFormedRequestsAreRefused : 2 ^ 28 ≤ 0x10000000 ∧ ([] : List Byte).length ≠ 2 ∧ [0xC3#8].length ≠ 2 ∧
    [0xC3#8, 0x8B, 0xC3].length ≠ 2 ∧
    (State.reset.withRequest (.command 0x10000000)).program = .issue (.command 0x10000000) :: [] ∧
    (State.reset.withRequest (.transaction .write [0xC3])).program = .issue (.transaction .write [0xC3]) :: [] := by decide
theorem witness_StepRunsTheDecodedInstruction :
    (State.reset.withFetchWord 32 0xFFFFFFF).program = .issue (.command 0xFFFFFFF) :: [] ∧
    (HostItem.issue (.command 0xFFFFFFF)).request (State.reset.withFetchWord 32 0xFFFFFFF) = some (.command 0xFFFFFFF) ∧
    decode (.command 0xFFFFFFF) = .ok .reservedF := by decide
theorem witness_CommandWordDrivesTheInputPorts :
    (State.reset.withRequest (.command (0x6001234#28).toNat)).program = .issue (.command (0x6001234#28).toNat) :: [] ∧
    ∃ t, step (State.reset.withRequest (.command (0x6001234#28).toNat)) = .next t := ⟨by decide, _, rfl⟩
theorem witness_CommandsAndTransactionsKeepApart : isTransaction .reservedC = false ∧ isTransaction (.busWr 0xC38B) = true ∧
    (∃ t, exec (.busWr 0xC38B) State.reset = .next t) ∧ isTransaction (.busRd 0) = true ∧
    ∃ t, exec (.busRd 0) State.reset = .next t := ⟨by decide, by decide, ⟨_, rfl⟩, by decide, _, rfl⟩
theorem witness_ResultsDependOnInputsAndParametersOnly :
    isTransaction (.cfgSplit 0xC38B) = false ∧ State.reset.cfg = (readyWith 0x1234).cfg ∧
    (∃ t, exec (.cfgSplit 0xC38B) State.reset = .next t ∧ t.outcome = .ok) ∧
    ∃ t, exec (.cfgSplit 0xC38B) (readyWith 0x1234) = .next t := ⟨by decide, rfl, ⟨_, rfl, rfl⟩, _, rfl⟩
theorem witness_ConfigurationChangesOnlyByALatchingTransaction :
    ∃ t, step (State.reset.withRequest (.transaction .write [0xC3, 0x8B])) = .next t := ⟨_, rfl⟩
theorem witness_FaultRecordOnlyGrows : ∃ t, step (State.reset.withRequest (.command 0xC000000)) = .next t ∧
    t.faults = [.illegalOp 0xC] := ⟨_, rfl, rfl⟩
theorem witness_ResetMeetsTheInvariant : ({ defaultConfig with tempNegMode := .arith } : Config).wellFormed = true := by decide
/-- The invariant holds in the middle of a read, and a step from there leads on. -/
theorem witness_EveryStepKeepsTheInvariant : Inv (polling 0xC38B) ∧ ∃ t, step (polling 0xC38B) = .next t :=
  ⟨⟨by decide, by unfold BusWellFormed; decide, fun _ => ⟨.transaction .read [0xC3, 0x8B], 0xC38B, by decide⟩,
      fun f h => (by cases h), ⟨by decide, fun f h => (by cases h)⟩⟩, _, rfl⟩
theorem witness_IdleStepOnlyRunsTheDevice : State.reset.program = [] := by decide
theorem witness_WriteCfgWritesTheWord : State.reset.bus.selected = false := by decide
theorem witness_ReadPseudoOperationsConvertTheSample : gainRow State.reset.cfg 0 = some ⟨.fs, 6144, 0⟩ ∧
    gainRow State.reset.cfg 5 = some ⟨.ratio, 78, 1⟩ := by decide
theorem witness_AveragedReadingIsTheMean : gainRow State.reset.cfg 1 = some ⟨.ratio, 125, 3⟩ ∧
    [0x0060#16].length = 1 ∧ 0 < 1 ∧ [0x0060#16, 0x0068, 0x0058, 0x0060].length = 4 := by decide
theorem witness_AverageWithInvalidSelectorFaultsAfterOneRead :
    ((6 : BitVec 3) = 6 ∨ (6 : BitVec 3) = 7) ∧ ((7 : BitVec 3) = 6 ∨ (7 : BitVec 3) = 7) ∧ 0 < 1 := by decide

end Sys2Proof.Tests
end

section
/-! Rounding (spec/00_scope.md R9). `roundEven` is first pinned down by two facts: it is within a half, and a half away only when
even. Nearness in the format then follows from one comparison of a representable value with the multiples of the unit in the
last place, and identity and monotonicity follow from nearness. -/

namespace Sys2Proof.Machine

/-! ## Rounding to an integer -/

/-- The branches of `roundEven`: down to the half, up from the half, and at the half itself to the even side. -/
theorem roundEven_cases (x : Rat) :
    (roundEven x = ⌊x⌋ ∧ x - ⌊x⌋ ≤ 1 / 2 ∧ (x - ⌊x⌋ = 1 / 2 → ⌊x⌋ % 2 = 0)) ∨
    (roundEven x = ⌊x⌋ + 1 ∧ 1 / 2 ≤ x - ⌊x⌋ ∧ (x - ⌊x⌋ = 1 / 2 → (⌊x⌋ + 1) % 2 = 0)) := by
  unfold roundEven
  split_ifs with below above even
  · exact .inl ⟨rfl, below.le, fun tie => absurd tie below.ne⟩
  · exact .inr ⟨rfl, above.le, fun tie => absurd tie above.ne'⟩
  · exact .inl ⟨rfl, not_lt.1 above, fun _ => even⟩
  · exact .inr ⟨rfl, not_lt.1 below, fun _ => by omega⟩

theorem abs_sub_roundEven_le (x : Rat) : |x - roundEven x| ≤ 1 / 2 := by
  have lower := Int.floor_le x
  have upper := Int.lt_floor_add_one x
  rw [abs_le]
  rcases roundEven_cases x with ⟨down, half, -⟩ | ⟨up, half, -⟩
  · rw [down]; constructor <;> linarith
  · rw [up]; push_cast; constructor <;> linarith

theorem roundEven_even_of_tie {x : Rat} (h : |x - roundEven x| = 1 / 2) : roundEven x % 2 = 0 := by
  rcases roundEven_cases x with ⟨down, -, even⟩ | ⟨up, -, even⟩
  · rw [down, abs_of_nonneg (sub_nonneg.2 (Int.floor_le x))] at h
    rw [down, even h]
  · have upper := Int.lt_floor_add_one x
    rw [up, Int.cast_add, Int.cast_one, abs_of_neg (by linarith)] at h
    rw [up, even (by linarith)]

/-- An integer other than the rounded one is at least the rest of a unit away. -/
theorem one_sub_le_abs_sub_of_ne_roundEven {x : Rat} {n : Int} (h : n ≠ roundEven x) :
    1 - |x - roundEven x| ≤ |x - n| := by
  have apart : (1 : Rat) ≤ |(n : Rat) - roundEven x| := mod_cast Int.one_le_abs (sub_ne_zero.2 h)
  have := abs_sub_le (n : Rat) x (roundEven x)
  rw [abs_sub_comm (n : Rat) x] at this
  linarith

theorem abs_sub_roundEven_le_abs_sub (x : Rat) (n : Int) : |x - roundEven x| ≤ |x - n| := by
  by_cases h : n = roundEven x
  · rw [h]
  · linarith [one_sub_le_abs_sub_of_ne_roundEven h, abs_sub_roundEven_le x]

theorem roundEven_even_of_equally_near {x : Rat} {n : Int} (ne : n ≠ roundEven x)
    (near : |x - n| = |x - roundEven x|) : roundEven x % 2 = 0 :=
  roundEven_even_of_tie (by linarith [one_sub_le_abs_sub_of_ne_roundEven ne, abs_sub_roundEven_le x])

/-- The two facts pin the rounded integer down. -/
theorem eq_roundEven {x : Rat} {n : Int} (near : |x - n| ≤ 1 / 2) (even : |x - n| = 1 / 2 → n % 2 = 0) :
    n = roundEven x := by
  by_contra ne
  have far := one_sub_le_abs_sub_of_ne_roundEven ne
  have near' := abs_sub_roundEven_le x
  have n_even := even (by linarith)
  have r_even := roundEven_even_of_tie (x := x) (by linarith)
  have tri := abs_sub_le (n : Rat) x (roundEven x)
  rw [abs_sub_comm (n : Rat) x] at tri
  have close : |n - roundEven x| ≤ 1 := by
    have : |(n : Rat) - roundEven x| ≤ 1 := by linarith
    exact_mod_cast this
  rw [abs_le] at close
  omega

@[simp] theorem roundEven_neg (x : Rat) : roundEven (-x) = -roundEven x := by
  have same : |-x - (-roundEven x : Int)| = |x - roundEven x| := by
    rw [← abs_neg]; push_cast; ring_nf
  refine (eq_roundEven (same ▸ abs_sub_roundEven_le x) fun tie => ?_).symm
  have := roundEven_even_of_tie (same ▸ tie)
  omega

theorem abs_roundEven_le {x : Rat} {n : Int} (h : |x| < n + 1 / 2) : |roundEven x| ≤ n := by
  have near := abs_sub_roundEven_le x
  have tri := abs_sub_abs_le_abs_sub (roundEven x : Rat) x
  rw [abs_sub_comm] at tri
  have : |(roundEven x : Rat)| < n + 1 := by linarith
  exact Int.lt_add_one_iff.1 (mod_cast this)

/-! ## The unit in the last place -/

theorem precision_pos (f : IeeeFormat) : 0 < precision f := by cases f <;> decide

theorem minExponent_le_maxExponent (f : IeeeFormat) : minExponent f ≤ maxExponent f := by cases f <;> decide

@[simp] theorem ulpExponent_neg (f : IeeeFormat) (q : Rat) : ulpExponent f (-q) = ulpExponent f q := by simp [ulpExponent]

theorem minExponent_le_ulpExponent (f : IeeeFormat) (q : Rat) : minExponent f - (precision f - 1) ≤ ulpExponent f q := by
  simp [ulpExponent]

theorem abs_lt_two_zpow (f : IeeeFormat) (q : Rat) : |q| < 2 ^ (ulpExponent f q + precision f) := by
  have := Int.lt_zpow_succ_log_self (b := 2) one_lt_two |q|
  push_cast at this
  refine this.trans_le (zpow_le_zpow_right₀ one_le_two ?_)
  unfold ulpExponent
  omega

/-- Above the least unit, the leading bit of the number is the first of the significand. -/
theorem two_zpow_le_abs {f : IeeeFormat} {q : Rat} (normal : minExponent f - (precision f - 1) < ulpExponent f q) (nz : q ≠ 0) :
    2 ^ (ulpExponent f q + (precision f - 1)) ≤ |q| := by
  have log_eq : ulpExponent f q + (precision f - 1) = Int.log 2 |q| := by
    unfold ulpExponent at normal ⊢
    omega
  have := Int.zpow_log_le_self (b := 2) one_lt_two (abs_pos.2 nz)
  rw [log_eq]
  exact_mod_cast this

/-- The leading bit's value is a multiple of the unit. -/
theorem leadingBit_eq (f : IeeeFormat) (u : Int) :
    (2 : Rat) ^ (u + (precision f - 1)) = ((2 ^ (precision f - 1) : Int) : Rat) * 2 ^ u := by
  have := precision_pos f
  have cast : ((precision f : Int) - 1) = ((precision f - 1 : Nat) : Int) := by omega
  rw [add_comm, zpow_add₀ two_ne_zero, cast, zpow_natCast]
  push_cast
  rfl

theorem overflowBound_lt (f : IeeeFormat) : overflowBound f < 2 ^ (maxExponent f + 1) := by
  cases f <;> decide +kernel

theorem ulpExponent_le_of_inRange {f : IeeeFormat} {q : Rat} (h : |q| < overflowBound f) :
    ulpExponent f q ≤ maxExponent f - (precision f - 1) := by
  have log_le : Int.log 2 |q| ≤ maxExponent f := by
    rcases eq_or_ne q 0 with rfl | nz
    · cases f <;> simp [maxExponent]
    · have := (Int.lt_zpow_iff_log_lt (b := 2) one_lt_two (abs_pos.2 nz)).1 (mod_cast h.trans (overflowBound_lt f))
      omega
  have := minExponent_le_maxExponent f
  unfold ulpExponent
  omega

/-! ## Rounding in the format -/

theorem roundNearest_neg (f : IeeeFormat) (q : Rat) : roundNearest f (-q) = -roundNearest f q := by
  simp [roundNearest, neg_div]

/-- Distances to multiples of the unit, measured in units. -/
theorem abs_sub_mul_ulp (q : Rat) (u n : Int) : |q - n * 2 ^ u| = |q / 2 ^ u - n| * 2 ^ u := by
  have pos : (0 : Rat) < 2 ^ u := by positivity
  calc |q - n * 2 ^ u| = |(q / 2 ^ u - n) * 2 ^ u| := by rw [sub_mul, div_mul_cancel₀ _ pos.ne']
    _ = |q / 2 ^ u - n| * 2 ^ u := by rw [abs_mul, abs_of_pos pos]

theorem abs_sub_roundNearest_le_multiple (f : IeeeFormat) (q : Rat) (n : Int) :
    |q - roundNearest f q| ≤ |q - n * 2 ^ ulpExponent f q| := by
  rw [roundNearest, abs_sub_mul_ulp, abs_sub_mul_ulp]
  exact mul_le_mul_of_nonneg_right (abs_sub_roundEven_le_abs_sub _ n) (by positivity)

theorem mul_zpow_eq_multiple_of_le (m : Int) {u e : Int} (coarse : u ≤ e) : ∃ n : Int, (m : Rat) * 2 ^ e = n * 2 ^ u := by
  refine ⟨m * 2 ^ (e - u).toNat, ?_⟩
  have split : e = ((e - u).toNat : Int) + u := by omega
  conv_lhs => rw [split, zpow_add₀ two_ne_zero, zpow_natCast, ← mul_assoc]
  push_cast
  rfl

/-- On a finer unit, the significand leaves no room above the leading bit. -/
theorem abs_mul_zpow_le_leadingBit {f : IeeeFormat} {m u e : Int} (hm : |m| ≤ 2 ^ precision f) (fine : e < u) :
    |(m : Rat) * 2 ^ e| ≤ 2 ^ (u + (precision f - 1)) := by
  have hm' : |(m : Rat)| ≤ 2 ^ (precision f : Int) := by rw [zpow_natCast]; exact_mod_cast hm
  calc |(m : Rat) * 2 ^ e| = |(m : Rat)| * 2 ^ e := by rw [abs_mul, abs_of_pos (by positivity : (0 : Rat) < 2 ^ e)]
    _ ≤ 2 ^ (precision f : Int) * 2 ^ e := mul_le_mul_of_nonneg_right hm' (by positivity)
    _ = 2 ^ (precision f + e) := (zpow_add₀ two_ne_zero _ _).symm
    _ ≤ 2 ^ (u + (precision f - 1)) := zpow_le_zpow_right₀ one_le_two (by omega)

/-- A value of a smaller magnitude than the leading bit of `q` is farther from `q` than the leading bit, with the sign of `q`. -/
theorem exists_multiple_nearer {f : IeeeFormat} {u : Int} {q v : Rat} (lead_le : 2 ^ (u + (precision f - 1)) ≤ |q|)
    (smaller : |v| < 2 ^ (u + (precision f - 1))) : ∃ n : Int, |q - n * 2 ^ u| < |q - v| := by
  have reach := abs_sub_abs_le_abs_sub q v
  rw [leadingBit_eq] at lead_le smaller
  rcases le_total 0 q with pos | neg
  · rw [abs_of_nonneg pos] at lead_le reach
    refine ⟨2 ^ (precision f - 1), ?_⟩
    rw [abs_of_nonneg (by linarith)]
    linarith
  · rw [abs_of_nonpos neg] at lead_le reach
    refine ⟨-2 ^ (precision f - 1), ?_⟩
    rw [Int.cast_neg, neg_mul, abs_of_nonpos (by linarith)]
    linarith

/-- The key comparison: a representable value is a multiple of the unit in the last place at `q`, or, being of a smaller
magnitude than the leading bit of `q`, farther from `q` than a multiple is. -/
theorem representable_multiple_or_farther {f : IeeeFormat} {v : Rat} (hv : Representable (.ieee f) v) (q : Rat) :
    (∃ n : Int, v = n * 2 ^ ulpExponent f q) ∨ ∃ n : Int, |q - n * 2 ^ ulpExponent f q| < |q - v| := by
  rcases eq_or_ne q 0 with rfl | nz
  · rcases eq_or_ne v 0 with rfl | v_nz
    · exact .inl ⟨0, by simp⟩
    · exact .inr ⟨0, by simpa using v_nz⟩
  obtain ⟨⟨m, e, hm, he, rfl⟩, -⟩ := hv
  rcases le_or_gt (ulpExponent f q) e with coarse | fine
  · exact .inl (mul_zpow_eq_multiple_of_le m coarse)
  rcases (abs_mul_zpow_le_leadingBit hm fine).lt_or_eq with smaller | same
  · exact .inr (exists_multiple_nearer (two_zpow_le_abs (he.trans_lt fine) nz) smaller)
  · rw [leadingBit_eq] at same
    rcases eq_or_eq_neg_of_abs_eq same with h | h
    · exact .inl ⟨_, h⟩
    · exact .inl ⟨-2 ^ (precision f - 1), by rw [h, Int.cast_neg, neg_mul]⟩

theorem abs_sub_roundNearest_le {f : IeeeFormat} {v : Rat} (hv : Representable (.ieee f) v) (q : Rat) :
    |q - roundNearest f q| ≤ |q - v| := by
  rcases representable_multiple_or_farther hv q with ⟨n, rfl⟩ | ⟨n, farther⟩
  · exact abs_sub_roundNearest_le_multiple f q n
  · exact (abs_sub_roundNearest_le_multiple f q n).trans farther.le

theorem roundNearest_even_of_equally_near {f : IeeeFormat} {q v : Rat} (hv : Representable (.ieee f) v)
    (ne : v ≠ roundNearest f q) (near : |q - v| = |q - roundNearest f q|) :
    roundEven (q / 2 ^ ulpExponent f q) % 2 = 0 := by
  rcases representable_multiple_or_farther hv q with ⟨n, rfl⟩ | ⟨n, farther⟩
  · rw [roundNearest, abs_sub_mul_ulp, abs_sub_mul_ulp] at near
    exact roundEven_even_of_equally_near (fun h => ne (by rw [h, roundNearest]))
      (mul_right_cancel₀ (by positivity) near)
  · exact absurd (abs_sub_roundNearest_le_multiple f q n) (near ▸ farther).not_ge

/-- The significand may be `2 ^ precision` where rounding carries into the next binade. -/
theorem abs_significand_le (f : IeeeFormat) (q : Rat) : |roundEven (q / 2 ^ ulpExponent f q)| ≤ 2 ^ precision f := by
  refine abs_roundEven_le ?_
  have pos : (0 : Rat) < 2 ^ ulpExponent f q := by positivity
  have bound := abs_lt_two_zpow f q
  rw [add_comm, zpow_add₀ two_ne_zero, zpow_natCast, ← div_lt_iff₀ pos] at bound
  rw [abs_div, abs_of_pos pos]
  push_cast
  linarith

/-- In the largest binade a number below the overflow bound does not carry. -/
theorem abs_significand_le_of_largestBinade {f : IeeeFormat} {q : Rat} (h : |q| < overflowBound f)
    (top : ulpExponent f q = maxExponent f - (precision f - 1)) :
    |roundEven (q / 2 ^ ulpExponent f q)| ≤ 2 ^ precision f - 1 := by
  refine abs_roundEven_le ?_
  have pos : (0 : Rat) < 2 ^ ulpExponent f q := by positivity
  have half : (2 : Rat) ^ (maxExponent f - precision f) = 2 ^ ulpExponent f q / 2 := by
    rw [top, div_eq_mul_inv, ← zpow_sub_one₀ (two_ne_zero' Rat)]; congr 1; ring
  rw [overflowBound, half, pow_succ] at h
  rw [abs_div, abs_of_pos pos, div_lt_iff₀ pos]
  push_cast
  linarith

theorem abs_roundNearest_le_largest {f : IeeeFormat} {q : Rat} (h : |q| < overflowBound f) :
    |roundNearest f q| ≤ largest f := by
  have pos : (0 : Rat) < 2 ^ ulpExponent f q := by positivity
  rw [roundNearest, abs_mul, abs_of_pos pos, largest]
  rcases (ulpExponent_le_of_inRange h).lt_or_eq with below | top
  · have sig : |(roundEven (q / 2 ^ ulpExponent f q) : Rat)| ≤ 2 ^ precision f := mod_cast abs_significand_le f q
    have two_le : (2 : Rat) ≤ 2 ^ precision f := le_self_pow₀ one_le_two (precision_pos f).ne'
    calc _ ≤ (2 : Rat) ^ precision f * 2 ^ ulpExponent f q := mul_le_mul_of_nonneg_right sig pos.le
      _ ≤ 2 ^ precision f * 2 ^ (maxExponent f - (precision f - 1) - 1) := by
        gcongr
        · exact one_le_two
        · omega
      _ = 2 ^ precision f / 2 * 2 ^ (maxExponent f - (precision f - 1)) := by
        rw [zpow_sub_one₀ two_ne_zero]; ring
      _ ≤ _ := by gcongr; linarith
  · have sig : |(roundEven (q / 2 ^ ulpExponent f q) : Rat)| ≤ 2 ^ precision f - 1 :=
      mod_cast abs_significand_le_of_largestBinade h top
    rw [← top]
    exact mul_le_mul_of_nonneg_right sig pos.le

theorem representable_roundNearest {f : IeeeFormat} {q : Rat} (h : |q| < overflowBound f) :
    Representable (.ieee f) (roundNearest f q) :=
  ⟨⟨_, _, abs_significand_le f q, minExponent_le_ulpExponent f q, rfl⟩, abs_roundNearest_le_largest h⟩

/-! ## `fl` in the range of an IEEE format and beyond it -/

theorem largest_lt_overflowBound (f : IeeeFormat) : largest f < overflowBound f := by cases f <;> decide +kernel

theorem fl_of_overflowBound_le {f : IeeeFormat} {q : Rat} (h : overflowBound f ≤ q) : fl (.ieee f) q = overflowValue f := by
  rw [fl_overflow (h.trans (le_abs_self q)), oddly_pos _ ((overflowBound_pos f).trans_le h)]

theorem fl_neg (f : FltFormat) (q : Rat) : fl f (-q) = -fl f q := by
  cases f with
  | ieee f =>
    rcases lt_or_ge |q| (overflowBound f) with inside | beyond
    · rw [fl_inRange inside, fl_inRange (by rwa [abs_neg]), roundNearest_neg]
    · rw [fl_overflow beyond, fl_overflow (by rwa [abs_neg]), oddly_neg]
  | other n => simp only [fl, oddly_neg]

theorem fl_of_le_neg_overflowBound {f : IeeeFormat} {q : Rat} (h : q ≤ -overflowBound f) :
    fl (.ieee f) q = -overflowValue f := by
  rw [← neg_neg q, fl_neg, fl_of_overflowBound_le (le_neg_of_le_neg h)]

theorem representable_fl {f : IeeeFormat} {q : Rat} (h : |q| < overflowBound f) :
    Representable (.ieee f) (fl (.ieee f) q) := by
  rw [fl_inRange h]; exact representable_roundNearest h

theorem abs_sub_fl_le {f : IeeeFormat} {q v : Rat} (h : |q| < overflowBound f) (hv : Representable (.ieee f) v) :
    |q - fl (.ieee f) q| ≤ |q - v| := by
  rw [fl_inRange h]; exact abs_sub_roundNearest_le hv q

/-- Settles O29: in the range by the comparison with the multiples of the unit in the last place, beyond it by the value `fl`
gives there. -/
theorem roundingIsToTheNearestValue : Obligations.RoundingIsToTheNearestValue := by
  unfold Obligations.RoundingIsToTheNearestValue
  intro f q
  refine ⟨fun inside => ⟨representable_fl inside, fun v hv => abs_sub_fl_le inside hv, fun v hv ne near => ?_⟩,
    fun above => ?_, fun below => ?_⟩
  · rw [fl_inRange inside] at ne near ⊢
    exact ⟨_, roundNearest_even_of_equally_near hv ne near, rfl⟩
  · rw [fl_of_overflowBound_le above]
    exact largest_le_overflowValue f
  · rw [fl_of_le_neg_overflowBound below]
    exact neg_le_neg (largest_le_overflowValue f)

/-! ## Identity and monotonicity, from nearness -/

theorem fl_of_representable {f : FltFormat} {q : Rat} (h : Representable f q) : fl f q = q := by
  cases f with
  | ieee f =>
    have near := abs_sub_fl_le (h.2.trans_lt (largest_lt_overflowBound f)) h
    rw [sub_self, abs_zero, abs_nonpos_iff, sub_eq_zero] at near
    exact near.symm
  | other n => exact h

/-- If `a` is at least as near to `p` as `b` is, and `b` to a greater `q` as `a` is, then `a` is not above `b`. -/
theorem le_of_nearest {a b p q : Rat} (lt : p < q) (hp : |p - a| ≤ |p - b|) (hq : |q - b| ≤ |q - a|) : a ≤ b := by
  rw [← sq_le_sq] at hp hq
  nlinarith

theorem abs_fl_le_overflowValue (f : IeeeFormat) (q : Rat) : |fl (.ieee f) q| ≤ overflowValue f := by
  have nonneg : 0 ≤ overflowValue f := (largest_nonneg f).trans (largest_le_overflowValue f)
  rcases lt_or_ge |q| (overflowBound f) with inside | beyond
  · exact (representable_fl inside).2.trans (largest_le_overflowValue f)
  · rcases le_abs'.1 beyond with below | above
    · rw [fl_of_le_neg_overflowBound below, abs_neg, abs_of_nonneg nonneg]
    · rw [fl_of_overflowBound_le above, abs_of_nonneg nonneg]

theorem fl_ieee_mono (f : IeeeFormat) : Monotone (fl (.ieee f)) := by
  refine monotone_iff_forall_lt.2 fun p q lt => ?_
  rcases le_or_gt p (-overflowBound f) with p_below | p_inside
  · rw [fl_of_le_neg_overflowBound p_below]
    exact (abs_le.1 (abs_fl_le_overflowValue f q)).1
  rcases le_or_gt (overflowBound f) q with q_above | q_inside
  · rw [fl_of_overflowBound_le q_above]
    exact (abs_le.1 (abs_fl_le_overflowValue f p)).2
  have hp : |p| < overflowBound f := abs_lt.2 ⟨p_inside, lt.trans q_inside⟩
  have hq : |q| < overflowBound f := abs_lt.2 ⟨p_inside.trans lt, q_inside⟩
  exact le_of_nearest lt (abs_sub_fl_le hp (representable_fl hq)) (abs_sub_fl_le hq (representable_fl hp))

theorem fl_other_mono (n : Nat) : Monotone (fl (.other n)) :=
  oddly_mono (fun _ => le_max_right _ _) ((Config.freeRounding n).monotone.max monotone_const)

/-- Settles O30: oddness branch by branch; identity and monotonicity from O29's nearness, and beyond the range from the constant
value there. -/
theorem roundingIsIdentityMonotoneAndOdd : Obligations.RoundingIsIdentityMonotoneAndOdd := by
  unfold Obligations.RoundingIsIdentityMonotoneAndOdd
  intro f
  refine ⟨fun q => fl_of_representable, fun p q h => ?_, fl_neg f⟩
  cases f with
  | ieee f => exact fl_ieee_mono f h
  | other n => exact fl_other_mono n h

end Sys2Proof.Machine
end

section
/-! What a command and a transaction may touch, and the device's register (spec/10_state.md R20 to R36). The rules come first, one
layer per definition: the fields of a word, the device-side write, the two frames of `exec`, the step by what was fetched. -/

namespace Sys2Proof

/-! ## Fields of a word -/

/-- A field of a field is a field of the word. -/
theorem bitField_bitField {n : Nat} (x : BitVec n) {lo w lo' w' : Nat} (inside : lo' + w' ≤ w) :
    bitField (bitField x lo w) lo' w' = bitField x (lo + lo') w' := by
  refine BitVec.eq_of_getLsbD_eq fun i hi => ?_
  simp only [bitField_getLsbD, Nat.add_assoc, show lo' + i < w by omega, decide_true, Bool.true_and]

/-- Bit 0 lies in no field above it. -/
theorem bitField_xor_one (x : Word) {lo w : Nat} (above : 0 < lo) : bitField (x ^^^ 1) lo w = bitField x lo w := by
  refine BitVec.eq_of_getLsbD_eq fun i _ => ?_
  have one : (1 : Word).getLsbD (lo + i) = false := by simp [BitVec.getLsbD_one]; omega
  rw [bitField_getLsbD, bitField_getLsbD, BitVec.getLsbD_xor, one, Bool.xor_false]

namespace Machine

/-! ## The device-side write (R31) -/

theorem latches_iff {w : Word} : latches w = true ↔ w.extractLsb 2 1 = 0b01#2 := beq_iff_eq

theorem fieldSs_beq_one (w : Word) : (fieldSs w == 1) = w.getLsbD 15 := by
  have bit : (fieldSs w).getLsbD 0 = w.getLsbD 15 := bitField_getLsbD w 15 1 0
  rw [← bit]
  generalize fieldSs w = b
  revert b
  decide

theorem requestsConversion_of_latches {w : Word} (h : latches w = true) : requestsConversion w = w.getLsbD 15 := by
  rw [requestsConversion, h, Bool.true_and, fieldSs_beq_one]

theorem Device.write_config_of_latches (d : Device) {w : Word} (h : latches w = true) :
    (d.write w).config = bitField w 3 12 := if_pos h

theorem Device.write_of_not_latches (d : Device) {w : Word} (h : latches w = false) :
    d.write w = { d with latched := false } := by
  simp [Device.write, requestsConversion, h]

/-- A write reads nothing of the word but its bits 15 to 1 (R75). -/
theorem Device.write_xor_one (d : Device) (w : Word) : d.write (w ^^^ 1) = d.write w := by
  have nop : latches (w ^^^ 1) = latches w := by
    rw [latches, latches, fieldNop, fieldNop, bitField_xor_one w (by decide)]
  have ss : requestsConversion (w ^^^ 1) = requestsConversion w := by
    rw [requestsConversion, requestsConversion, nop, fieldSs, fieldSs, bitField_xor_one w (by decide)]
  rw [Device.write, Device.write, nop, ss, bitField_xor_one w (by decide)]

/-- Settles O22, by whether the word latches. -/
theorem devWriteLatchesOnlyUnderTheNopPattern : Obligations.DevWriteLatchesOnlyUnderTheNopPattern := by
  unfold Obligations.DevWriteLatchesOnlyUnderTheNopPattern
  intro d w
  refine ⟨fun nop => ?_, fun nop => ?_, rfl, rfl⟩
  · have latch := latches_iff.2 nop
    have start := requestsConversion_of_latches latch
    refine ⟨d.write_config_of_latches latch, fun ss => ?_, fun ss => ?_⟩
    · rw [ss] at start
      simp [start]
    · rw [ss] at start
      simp [start]
  · exact d.write_of_not_latches (Bool.eq_false_iff.2 (mt latches_iff.1 nop))

/-! ## The register as a word (R29) -/

theorem Device.configWord_getLsbD_zero (d : Device) (ss : BitVec 1) (nop : BitVec 2) :
    (d.configWord ss nop).getLsbD 0 = true :=
  BitVec.getLsbD_append (x := ss ++ d.config ++ nop) (y := 1#1)

/-- The stored bits stand between the bit that is hardwired with NOP and SS. -/
theorem Device.bitField_configWord (d : Device) (ss : BitVec 1) (nop : BitVec 2) :
    bitField (d.configWord ss nop) 3 12 = d.config :=
  calc (ss ++ d.config ++ nop ++ 1#1).extractLsb' 3 12
    _ = (ss ++ d.config ++ nop).extractLsb' 2 12 := BitVec.extractLsb'_append_eq_of_le (by decide)
    _ = (ss ++ d.config).extractLsb' 0 12 := BitVec.extractLsb'_append_eq_of_le (by decide)
    _ = d.config.extractLsb' 0 12 := BitVec.extractLsb'_append_eq_of_add_le (by decide)
    _ = d.config := BitVec.extractLsb'_eq_self

/-- Settles O24: each field of the stored configuration is a field of the field 14:3 of the word that was latched. -/
theorem deviceBitZeroIsHardwired : Obligations.DeviceBitZeroIsHardwired := by
  unfold Obligations.DeviceBitZeroIsHardwired
  intro d w ss nop
  refine ⟨d.configWord_getLsbD_zero ss nop, d.write_xor_one w, fun latch => ?_⟩
  have stored := d.write_config_of_latches (latches_iff.2 latch)
  have field {lo k : Nat} (inside : lo + k ≤ 12) : bitField (d.write w).config lo k = bitField w (3 + lo) k := by
    rw [stored, bitField_bitField w inside]
  exact ⟨((d.write w).bitField_configWord ss nop).trans stored, field (by decide), field (by decide), field (by decide),
    field (by decide), field (by decide), field (by decide)⟩

/-! ## What a command and a transaction touch (R20, R41) -/

/-- Every command ends in a next state, answered or faulted (R11). -/
theorem exec_command {i : Instr} (hi : isTransaction i = false) (s : State) :
    ∃ t, exec i s = .next t ∧ ((∃ v, Answered s t v) ∨ ∃ f, Faulted s t f) := by
  rcases exec_command_cases hi s with ⟨set, v, -, h⟩ | ⟨f, h⟩
  · exact ⟨_, h, .inl ⟨v, answer_answered s set v⟩⟩
  · exact ⟨_, h, .inr ⟨f, raise_faulted s f⟩⟩

theorem exec_command_frame {i : Instr} {s t : State} (hi : isTransaction i = false) (h : exec i s = .next t) :
    BlockFrame s t := by
  obtain ⟨u, hu, ends⟩ := exec_command hi s
  obtain rfl : u = t := Host.Outcome.next.inj (hu.symm.trans h)
  rcases ends with ⟨_, answered⟩ | ⟨_, faulted⟩
  · exact answered.frame
  · exact faulted.frame

theorem isTransaction_cases {i : Instr} (hi : isTransaction i = true) : ∃ w, i = .busWr w ∨ i = .busRd w := by
  cases i with
  | busWr w => exact ⟨w, .inl rfl⟩
  | busRd next => exact ⟨next, .inr rfl⟩
  | _ => cases hi

theorem exec_transaction_frame {i : Instr} {s t : State} (hi : isTransaction i = true) (h : exec i s = .next t) :
    BusFrame s t := by
  obtain ⟨w, rfl | rfl⟩ := isTransaction_cases hi
  · obtain ⟨-, frame, -⟩ := exec_busWr h
    exact frame
  · obtain ⟨frame, -⟩ := exec_busRd h
    exact frame

/-- No instruction changes the parameters (R190). -/
theorem exec_cfg {i : Instr} {s t : State} (h : exec i s = .next t) : t.cfg = s.cfg := by
  cases hi : isTransaction i with
  | false => exact (exec_command_frame hi h).cfg
  | true => exact (exec_transaction_frame hi h).cfg

/-- No instruction drives an input port: only presenting a request does. -/
theorem exec_inp {i : Instr} {s t : State} (h : exec i s = .next t) : t.inp = s.inp := by
  cases hi : isTransaction i with
  | false => exact (exec_command_frame hi h).inp
  | true => exact (exec_transaction_frame hi h).inp

/-- Settles O47: the two frames. -/
theorem commandsAndTransactionsKeepApart : Obligations.CommandsAndTransactionsKeepApart := by
  unfold Obligations.CommandsAndTransactionsKeepApart
  exact fun i s => ⟨fun hi => exec_command hi s, fun hi _ h => exec_transaction_frame hi h⟩

/-! ## What a command's results depend on (R20, R39) -/

/-- Under the same parameters a command does the same in two states: it answers with the same status by writing the same values
to the outputs it names, whatever the free values of the others are, or it raises the same fault. -/
theorem exec_command_agrees {i : Instr} (hi : isTransaction i = false) {s₁ s₂ : State} (same : s₁.cfg = s₂.cfg) :
    (∃ set v, (∀ o₁ o₂, namedOutputs i (set o₁) = namedOutputs i (set o₂)) ∧
      exec i s₁ = .next (s₁.answer set v) ∧ exec i s₂ = .next (s₂.answer set v)) ∨
    ∃ f, exec i s₁ = .next (s₁.raise f) ∧ exec i s₂ = .next (s₂.raise f) := by
  cases i with
  | cfgPack =>
    rw [exec_cfgPack_eq, exec_cfgPack_eq, execCfgPack, execCfgPack, same]
    exact .inl ⟨_, _, fun _ _ => rfl, rfl, rfl⟩
  | cfgPreset n =>
    rw [exec_cfgPreset_eq, exec_cfgPreset_eq, execCfgPreset, execCfgPreset, same]
    cases s₂.cfg.presets.lookup n with
    | some w => exact .inl ⟨_, _, fun _ _ => rfl, rfl, rfl⟩
    | none => exact .inr ⟨_, rfl, rfl⟩
  | adcScale g a =>
    rw [exec_adcScale_eq, exec_adcScale_eq, execAdcScale, execAdcScale, same]
    cases gainRow s₂.cfg g with
    | some r => exact .inl ⟨_, _, fun _ _ => rfl, rfl, rfl⟩
    | none => exact .inr ⟨_, rfl, rfl⟩
  | adcMv g a =>
    rw [exec_adcMv_eq, exec_adcMv_eq, execAdcMv, execAdcMv, same]
    cases gainRow s₂.cfg g with
    | some r => exact .inl ⟨_, _, fun _ _ => rfl, rfl, rfl⟩
    | none => exact .inr ⟨_, rfl, rfl⟩
  | tmpDec =>
    rw [exec_tmpDec_eq, exec_tmpDec_eq, execTmpDec, execTmpDec, same]
    exact .inl ⟨_, _, fun _ _ => rfl, rfl, rfl⟩
  | cfgUnpack | cfgBtst | cfgBset | cfgBclr | cfgSplit | smpJoin | smpSext =>
    exact .inl ⟨_, _, fun _ _ => rfl, rfl, rfl⟩
  | reservedC | reservedD | reservedE | reservedF => exact .inr ⟨_, rfl, rfl⟩
  | busWr | busRd => cases hi

/-- Settles O48: the two runs answer alike or raise alike; after a fault no output is named. -/
theorem resultsDependOnInputsAndParametersOnly : Obligations.ResultsDependOnInputsAndParametersOnly := by
  unfold Obligations.ResultsDependOnInputsAndParametersOnly
  intro i s₁ s₂ t₁ t₂ hi same h₁ h₂
  rcases exec_command_agrees hi same with ⟨set, v, named, e₁, e₂⟩ | ⟨f, e₁, e₂⟩
  · obtain rfl : _ = t₁ := Host.Outcome.next.inj (e₁.symm.trans h₁)
    obtain rfl : _ = t₂ := Host.Outcome.next.inj (e₂.symm.trans h₂)
    exact ⟨rfl, rfl, fun _ => named _ _⟩
  · obtain rfl : _ = t₁ := Host.Outcome.next.inj (e₁.symm.trans h₁)
    obtain rfl : _ = t₂ := Host.Outcome.next.inj (e₂.symm.trans h₂)
    exact ⟨rfl, rfl, fun ok => nomatch ok⟩

/-! ## What changes the stored configuration (R27) -/

theorem Device.write_config_cases (d : Device) (w : Word) :
    (d.write w).config = d.config ∨ w.extractLsb 2 1 = 0b01#2 ∧ (d.write w).config = w.extractLsb 14 3 := by
  cases latch : latches w with
  | false => exact .inl (by rw [d.write_of_not_latches latch])
  | true => exact .inr ⟨latches_iff.1 latch, d.write_config_of_latches latch⟩

/-- Only a transaction whose word latches changes the stored configuration; a read that is still polling does not. -/
theorem exec_config {i : Instr} {s t : State} (h : exec i s = .next t) :
    t.dev.config = s.dev.config ∨
      ∃ w, (i = .busWr w ∨ i = .busRd w) ∧ w.extractLsb 2 1 = 0b01#2 ∧ t.dev.config = w.extractLsb 14 3 := by
  cases hi : isTransaction i with
  | false => exact .inl (by rw [(exec_command_frame hi h).dev])
  | true =>
    obtain ⟨w, rfl | rfl⟩ := isTransaction_cases hi
    · obtain ⟨-, -, dev, -⟩ := exec_busWr h
      rw [dev]
      exact (s.dev.write_config_cases w).imp_right fun written => ⟨w, .inl rfl, written⟩
    · obtain ⟨-, -, ⟨-, dev, -⟩ | ⟨-, dev, -⟩⟩ := exec_busRd h
      · rw [dev]
        exact (Device.write_config_cases { s.dev with pending := false } w).imp_right fun written => ⟨w, .inr rfl, written⟩
      · exact .inl (by rw [dev])

/-- Settles O49: the host's own work and the device running leave both alone, so that only the instruction is left. -/
theorem configurationChangesOnlyByALatchingTransaction : Obligations.ConfigurationChangesOnlyByALatchingTransaction := by
  unfold Obligations.ConfigurationChangesOnlyByALatchingTransaction
  intro s t h
  rcases stepWith_cases h with ⟨-, rfl⟩ | ⟨item, -, rfl⟩ | ⟨r, i, u, fetched, run, rfl⟩
  · exact ⟨rfl, .inl rfl⟩
  · exact ⟨s.hostWork_cfg item, .inl (by simp)⟩
  · refine ⟨(exec_cfg run).trans (s.present_cfg r), ?_⟩
    rcases exec_config run with same | ⟨w, rfl | rfl, latched⟩
    · exact .inl (same.trans (by rw [s.present_dev]))
    · exact .inr ⟨r, w, .inl fetched, latched⟩
    · exact .inr ⟨r, w, .inr fetched, latched⟩

/-! ## The step, by what stands first in the host's list -/

section
variable {s : State} {item : HostItem} {rest : List HostItem} {r : Request}

theorem fetch_of_program_nil (hp : s.program = []) : s.fetch = .idle := by
  simp [State.fetch, hp]

theorem fetch_of_decode_ok {i : Instr} (hp : s.program = item :: rest) (hr : item.request s = some r)
    (hd : decode r = .ok i) : s.fetch = .instruction r i := by
  simp [State.fetch, hp, hr, hd]

theorem fetch_of_decode_error {e : DecodeError} (hp : s.program = item :: rest) (hr : item.request s = some r)
    (hd : decode r = .error e) : s.fetch = .invalid e := by
  simp [State.fetch, hp, hr, hd]

theorem step_of_program_nil (hp : s.program = []) :
    step s = .next (s.deviceRuns (Config.freeReady s.draws) (Config.freeConv s.draws)) := by
  rw [step, stepWith, fetch_of_program_nil hp]

theorem step_of_decode_ok {i : Instr} (hp : s.program = item :: rest) (hr : item.request s = some r)
    (hd : decode r = .ok i) : step s = andThen (exec i (s.present r)) fun t =>
      t.deviceRuns (Config.freeReady s.draws) (Config.freeConv s.draws) := by
  rw [step, stepWith, fetch_of_decode_ok hp hr hd]

theorem step_of_decode_error {e : DecodeError} (hp : s.program = item :: rest) (hr : item.request s = some r)
    (hd : decode r = .error e) : step s = .refused (.rejected e) := by
  rw [step, stepWith, fetch_of_decode_error hp hr hd]

end

theorem andThen_eq_next {o : Host.Outcome State Fault Refusal} {f : State → State} {t : State} :
    andThen o f = .next t ↔ ∃ u, o = .next u ∧ f u = t := by
  cases o <;> simp [andThen]

theorem decode_command_overWide {cw : Nat} (h : 2 ^ 28 ≤ cw) : decode (.command cw) = .error (.overWide cw) :=
  if_neg h.not_gt

theorem decode_transaction_of_length_ne_two (dir : BusDir) {bytes : List Byte} (h : bytes.length ≠ 2) :
    decode (.transaction dir bytes) = .error (.transactionLength bytes.length) := by
  match bytes with
  | [] | [_] | _ :: _ :: _ :: _ => rfl
  | [_, _] => exact absurd rfl h

/-- Settles O43: the decoder refuses both, and the step names what it refused. -/
theorem illFormedRequestsAreRefused : Obligations.IllFormedRequestsAreRefused := by
  unfold Obligations.IllFormedRequestsAreRefused
  exact fun s rest =>
    ⟨fun cw wide hp => step_of_decode_error hp rfl (decode_command_overWide wide),
      fun dir bytes length hp => step_of_decode_error hp rfl (decode_transaction_of_length_ne_two dir length)⟩

/-- Settles O45: it is the rule for a head that decodes. -/
theorem stepRunsTheDecodedInstruction : Obligations.StepRunsTheDecodedInstruction := by
  unfold Obligations.StepRunsTheDecodedInstruction
  exact fun s item rest r i => step_of_decode_ok

/-- The input ports after a step that presented a command word: no command and no device run drives them again. -/
theorem step_command_inp {s t : State} {cw : CommandWord} {rest : List HostItem}
    (hp : s.program = .issue (.command cw.toNat) :: rest) (h : step s = .next t) : t.inp = drivenPorts cw := by
  rw [step_of_decode_ok hp rfl (decode_command_toNat cw)] at h
  obtain ⟨u, run, rfl⟩ := andThen_eq_next.1 h
  rw [State.deviceRuns_inp, exec_inp run, State.present_command_inp, BitVec.ofNat_toNat, BitVec.setWidth_eq]

/-- Settles O46: a field of the operand field is a field of the word. -/
theorem commandWordDrivesTheInputPorts : Obligations.CommandWordDrivesTheInputPorts := by
  unfold Obligations.CommandWordDrivesTheInputPorts
  intro s t cw rest hp h
  have field {lo k : Nat} (inside : lo + k ≤ 16) : bitField (operandField cw) lo k = bitField cw lo k := by
    rw [operandField, bitField_bitField cw inside, Nat.zero_add]
  rw [step_command_inp hp h]
  exact ⟨rfl, rfl, rfl, rfl, field (by decide), field (by decide), field (by decide), field (by decide), field (by decide),
    field (by decide), field (by decide), field (by decide), field (by decide), field (by decide)⟩

/-- Settles O54: the step is the device running, which touches its ready level and its output shift register only. -/
theorem idleStepOnlyRunsTheDevice : Obligations.IdleStepOnlyRunsTheDevice := by
  unfold Obligations.IdleStepOnlyRunsTheDevice
  exact fun s hp =>
    ⟨_, step_of_program_nil hp, rfl, rfl, rfl, rfl, rfl, rfl, rfl, rfl, rfl, rfl, rfl, rfl, rfl⟩

/-! ## Reset (R34 to R36, R190) -/

theorem clear_vector_mem :
    Status.clear.vector ∈ [0b00000#5, 0b00001#5, 0b00010#5, 0b00100#5, 0b01000#5, 0b10000#5] := by decide

/-- No read is in progress and no fault is the latest outcome, so what is left is the parameters and the clear status. -/
theorem inv_resetWith {c : Config} (wf : c.wellFormed = true) : Inv (State.resetWith c) where
  config := wf
  bus := rfl
  reading selected := nomatch selected
  record _ faulted := nomatch faulted
  status := ⟨clear_vector_mem, fun _ faulted => nomatch faulted⟩

theorem defaultConfig_wellFormed : defaultConfig.wellFormed = true := by decide

/-- Settles O51: the default parameters are well-formed. -/
theorem resetMeetsTheInvariant : Obligations.ResetMeetsTheInvariant := by
  unfold Obligations.ResetMeetsTheInvariant
  exact ⟨fun _ => inv_resetWith, inv_resetWith defaultConfig_wellFormed⟩

/-- Settles O53: the first half by the definition of `State.resetWith`, the fields by evaluating 0x058B. -/
theorem resetLeavesTheDeviceAtTheParameter : Obligations.ResetLeavesTheDeviceAtTheParameter := by
  unfold Obligations.ResetLeavesTheDeviceAtTheParameter
  exact ⟨fun _ => ⟨rfl, rfl, rfl, rfl, rfl, rfl, rfl⟩, by decide⟩

end Machine
end Sys2Proof
end

section
/-! The memory of the system (spec/20_memory.md): which writes to the device may be repeated, and what every step keeps. The
invariant is taken part by part: what the fetch looks at, the phase of the bus after a transaction, the record of faults and the
status outputs; then one lemma for each thing a step is made of, so that the step itself only puts them together. -/

namespace Sys2Proof.Machine

/-! ## A repeated device-side write (R53) -/

/-- A latching word with SS = 0 stores its fields and requests nothing. -/
theorem Device.write_of_latches_of_ss_zero (d : Device) {w : Word} (latch : latches w = true) (ss : w.getLsbD 15 = false) :
    d.write w = { d with config := bitField w 3 12, latched := true } := by
  have start : requestsConversion w = false := (requestsConversion_of_latches latch).trans ss
  simp [Device.write, latch, start]

/-- A latching word with SS = 1 is a start request each time it is written (R26). -/
theorem Device.write_requests_of_ss_one (d : Device) {w : Word} (latch : latches w = true) (ss : w.getLsbD 15 = true) :
    (d.write w).requests = d.requests + 1 := if_pos ((requestsConversion_of_latches latch).trans ss)

/-- Settles O23: a latching write stores the word's fields; with SS = 0 it does nothing more, with SS = 1 it adds a request. -/
theorem onlyAStartRequestIsNotIdempotent : Obligations.OnlyAStartRequestIsNotIdempotent := by
  unfold Obligations.OnlyAStartRequestIsNotIdempotent
  intro d w nop
  have latch := latches_iff.2 nop
  refine ⟨?_, fun ss => ?_, fun ss => (d.write w).write_requests_of_ss_one latch ss⟩
  · rw [Device.write_config_of_latches _ latch, Device.write_config_of_latches _ latch]
  · rw [Device.write_of_latches_of_ss_zero _ latch ss, Device.write_of_latches_of_ss_zero _ latch ss]

/-! ## What the fetch looks at (R20, R23) -/

theorem HostItem.request_congr {s t : State} (out : t.out = s.out) (high : t.bus.rxHigh = s.bus.rxHigh)
    (low : t.bus.rxLow = s.bus.rxLow) (item : HostItem) : item.request t = item.request s := by
  cases item <;> simp [HostItem.request, out, high, low]

/-- The fetch depends on the host's list and on what its items can feed back: the outputs and the two bytes received. -/
theorem State.fetch_congr {s t : State} (program : t.program = s.program) (out : t.out = s.out)
    (high : t.bus.rxHigh = s.bus.rxHigh) (low : t.bus.rxLow = s.bus.rxLow) : t.fetch = s.fetch := by
  simp only [State.fetch, program, HostItem.request_congr out high low]

@[simp] theorem State.fetch_present (s : State) (r : Request) : (s.present r).fetch = s.fetch :=
  State.fetch_congr (by simp) (by simp) (by simp) (by simp)

@[simp] theorem State.fetch_deviceRuns (s : State) (ready : Bool) (conv : Word) :
    (s.deviceRuns ready conv).fetch = s.fetch := State.fetch_congr rfl rfl rfl rfl

/-! ## The read in progress (R47, R50) -/

theorem readInProgress_of_line_free {s : State} (free : s.bus.selected = false) : ReadInProgress s :=
  fun selected => absurd (free.symm.trans selected) Bool.false_ne_true

theorem ReadInProgress.line_free {s : State} (reading : ReadInProgress s)
    (other : ∀ r next, s.fetch ≠ .instruction r (.busRd next)) : s.bus.selected = false := by
  refine Bool.eq_false_iff.2 fun selected => ?_
  obtain ⟨r, next, fetched⟩ := reading selected
  exact other r next fetched

/-! ## The phase of the bus (R45, R112, R113) -/

theorem busPhase_cons (p : BusPhase) (e : BusEvent) (es : List BusEvent) :
    busPhase p (e :: es) = (p.next e).bind fun q => busPhase q es := by
  rw [busPhase]
  cases p.next e <;> rfl

theorem busPhase_append {p q : BusPhase} {es : List BusEvent} (h : busPhase p es = some q) (more : List BusEvent) :
    busPhase p (es ++ more) = busPhase q more := by
  induction es generalizing p with
  | nil => rw [Option.some.inj h, List.nil_append]
  | cons e es ih =>
    rw [busPhase_cons] at h
    obtain ⟨u, event, rest⟩ := Option.bind_eq_some_iff.1 h
    rw [List.cons_append, busPhase_cons, event, Option.bind_some, ih rest]

theorem busPhase_of_line_free {s : State} (bus : BusWellFormed s) (free : s.bus.selected = false) :
    busPhase .idle s.bus.trace = some .idle := by
  rw [bus, free]
  rfl

/-- Asserting the select line starts a transaction, or leaves one that is polling where it is (R110). -/
theorem busPhase_assertSelect {s : State} (bus : BusWellFormed s) :
    busPhase .idle s.bus.assertSelect.trace = some (if s.bus.selected then .polling else .selected) := by
  rw [Bus.assertSelect_trace]
  cases line : s.bus.selected with
  | false => exact busPhase_append (busPhase_of_line_free bus line) _
  | true => rw [if_pos rfl, bus, line]; rfl

theorem busWellFormed_congr {s t : State} (bus : t.bus = s.bus) : BusWellFormed t ↔ BusWellFormed s := by
  rw [BusWellFormed, BusWellFormed, bus]

theorem exec_busWr_busWellFormed {w : Word} {s t : State} (bus : BusWellFormed s) (h : exec (.busWr w) s = .next t) :
    BusWellFormed t := by
  obtain ⟨free, -, -, -, freed, -, -, trace⟩ := exec_busWr h
  rw [BusWellFormed, trace, freed, busPhase_append (busPhase_of_line_free bus free)]
  rfl

theorem exec_busRd_busWellFormed {next : Word} {s t : State} (bus : BusWellFormed s)
    (h : exec (.busRd next) s = .next t) : BusWellFormed t := by
  have begun := busPhase_assertSelect bus
  obtain ⟨-, -, ⟨-, -, -, line, -, -, trace⟩ | ⟨-, -, -, line, -, -, trace⟩⟩ := exec_busRd h
  all_goals
    rw [BusWellFormed, trace, line, busPhase_append begun]
    cases s.bus.selected <;> rfl

/-! ## The record of faults and the status outputs (R170, R178) -/

theorem FaultOnRecord.mono {s t : State} (record : FaultOnRecord s) (outcome : t.outcome = s.outcome)
    (kept : s.faults ⊆ t.faults) : FaultOnRecord t :=
  fun f faulted => kept (record f (outcome.symm.trans faulted))

theorem statusConsistent_congr {s t : State} (st : t.st = s.st) (outcome : t.outcome = s.outcome) :
    StatusConsistent t ↔ StatusConsistent s := by
  rw [StatusConsistent, StatusConsistent, st, outcome]

theorem statusConsistent_answer (s : State) (set : OutPorts → OutPorts) {v : Status} (h : AnswerStatus v) :
    StatusConsistent (s.answer set v) := by
  refine ⟨?_, fun _ faulted => nomatch faulted⟩
  rw [State.answer_st]
  rcases h with rfl | rfl | rfl <;> decide

theorem statusConsistent_raise (s : State) (f : CommandFault) : StatusConsistent (s.raise f) := by
  refine ⟨?_, fun g raised => congrArg faultStatus (CommandOutcome.fault.inj raised)⟩
  rw [State.raise_st]
  cases f <;> rw [faultStatus] <;> decide

/-- The host's own work takes no fault off the record; an averaged reading of nothing adds one (R162). -/
theorem State.faults_subset_hostWork (s : State) (item : HostItem) : s.faults ⊆ (s.hostWork item).faults := by
  cases item with
  | avgMean n v =>
    rw [State.hostWork, State.endAverage]
    split
    · exact List.subset_append_left _ _
    · exact List.Subset.refl _
  | avgAdd v => rw [State.hostWork, State.addSample_faults]; exact List.Subset.refl _
  | _ => exact List.Subset.refl _

/-! ## What keeps the invariant -/

theorem inv_present {s : State} (inv : Inv s) (r : Request) : Inv (s.present r) where
  config := by rw [s.present_cfg]; exact inv.config
  bus := (busWellFormed_congr (s.present_bus r)).2 inv.bus
  reading := by rw [ReadInProgress, s.present_bus, s.fetch_present]; exact inv.reading
  record := inv.record.mono (s.present_outcome r) (by rw [s.present_faults]; exact List.Subset.refl _)
  status := (statusConsistent_congr (s.present_st r) (s.present_outcome r)).2 inv.status

theorem inv_deviceRuns {s : State} (inv : Inv s) (ready : Bool) (conv : Word) : Inv (s.deviceRuns ready conv) where
  config := inv.config
  bus := inv.bus
  reading := by rw [ReadInProgress, s.fetch_deviceRuns]; exact inv.reading
  record := inv.record
  status := inv.status

theorem inv_hostWork {s : State} {item : HostItem} (inv : Inv s) (fetched : s.fetch = .work item) :
    Inv (s.hostWork item) where
  config := by rw [s.hostWork_cfg]; exact inv.config
  bus := (busWellFormed_congr (s.hostWork_bus item)).2 inv.bus
  reading := readInProgress_of_line_free (by
    rw [s.hostWork_bus]
    exact inv.reading.line_free (by simp [fetched]))
  record := inv.record.mono (s.hostWork_outcome item) (s.faults_subset_hostWork item)
  status := (statusConsistent_congr (s.hostWork_st item) (s.hostWork_outcome item)).2 inv.status

theorem inv_answer {s : State} (inv : Inv s) (free : s.bus.selected = false) (set : OutPorts → OutPorts) {v : Status}
    (h : AnswerStatus v) : Inv (s.answer set v) where
  config := inv.config
  bus := inv.bus
  reading := readInProgress_of_line_free free
  record _ faulted := nomatch faulted
  status := statusConsistent_answer s set h

theorem inv_raise {s : State} (inv : Inv s) (free : s.bus.selected = false) (f : CommandFault) : Inv (s.raise f) where
  config := inv.config
  bus := inv.bus
  reading := readInProgress_of_line_free free
  record g raised := by
    rw [← CommandOutcome.fault.inj raised, State.raise_faults]
    exact List.mem_append_right _ List.mem_cons_self
  status := statusConsistent_raise s f

/-- A transaction touches the bus only, so what is left to show is the bus and the read in progress (R41). -/
theorem Inv.of_busFrame {s t : State} (inv : Inv s) (frame : BusFrame s t) (bus : BusWellFormed t)
    (reading : ReadInProgress t) : Inv t where
  config := by rw [frame.cfg]; exact inv.config
  bus := bus
  reading := reading
  record := inv.record.mono frame.outcome (by rw [frame.faults]; exact List.Subset.refl _)
  status := (statusConsistent_congr frame.st frame.outcome).2 inv.status

theorem exec_command_inv {i : Instr} {s t : State} (hi : isTransaction i = false) (inv : Inv s)
    (free : s.bus.selected = false) (h : exec i s = .next t) : Inv t := by
  rcases exec_command_cases hi s with ⟨set, v, status, ends⟩ | ⟨f, ends⟩
  · obtain rfl : _ = t := Host.Outcome.next.inj (ends.symm.trans h)
    exact inv_answer inv free set status
  · obtain rfl : _ = t := Host.Outcome.next.inj (ends.symm.trans h)
    exact inv_raise inv free f

theorem exec_busWr_inv {w : Word} {s t : State} (inv : Inv s) (h : exec (.busWr w) s = .next t) : Inv t := by
  obtain ⟨-, frame, -, -, free, -⟩ := exec_busWr h
  exact inv.of_busFrame frame (exec_busWr_busWellFormed inv.bus h) (readInProgress_of_line_free free)

/-- A read that ends frees the line; one that is still polling stays the next thing the host does (R114). -/
theorem exec_busRd_inv {r : Request} {next : Word} {s t : State} (inv : Inv s)
    (fetched : s.fetch = .instruction r (.busRd next)) (h : exec (.busRd next) s = .next t) : Inv t := by
  obtain ⟨frame, -, ⟨-, -, -, free, -⟩ | ⟨-, -, program, -, high, low, -⟩⟩ := exec_busRd h
  · exact inv.of_busFrame frame (exec_busRd_busWellFormed inv.bus h) (readInProgress_of_line_free free)
  · exact inv.of_busFrame frame (exec_busRd_busWellFormed inv.bus h) fun _ =>
      ⟨r, next, (State.fetch_congr program frame.out high low).trans fetched⟩

/-- Of the instructions only the read can be fetched while the select line is asserted. -/
theorem exec_inv {r : Request} {i : Instr} {s t : State} (inv : Inv s) (fetched : s.fetch = .instruction r i)
    (h : exec i s = .next t) : Inv t := by
  cases hi : isTransaction i with
  | false =>
    have free : s.bus.selected = false := inv.reading.line_free fun _ _ reads => by
      obtain ⟨-, rfl⟩ := Fetched.instruction.inj (fetched.symm.trans reads)
      cases hi
    exact exec_command_inv hi inv free h
  | true =>
    obtain ⟨w, rfl | rfl⟩ := isTransaction_cases hi
    · exact exec_busWr_inv inv h
    · exact exec_busRd_inv inv fetched h

/-- Whatever the device then does. -/
theorem stepWith_inv {ready : Bool} {conv : Word} {s t : State} (inv : Inv s) (h : stepWith ready conv s = .next t) :
    Inv t := by
  rcases stepWith_cases h with ⟨-, rfl⟩ | ⟨item, fetched, rfl⟩ | ⟨r, i, u, fetched, run, rfl⟩
  · exact inv_deviceRuns inv ready conv
  · exact inv_deviceRuns (inv_hostWork inv fetched) ready conv
  · exact inv_deviceRuns (exec_inv (inv_present inv r) ((s.fetch_present r).trans fetched) run) ready conv

/-- Settles O52, by what the host does in the step; the device running keeps the invariant whatever values it takes. -/
theorem everyStepKeepsTheInvariant : Obligations.EveryStepKeepsTheInvariant := by
  unfold Obligations.EveryStepKeepsTheInvariant
  exact fun s t inv => stepWith_inv inv

end Sys2Proof.Machine
end

section
/-! The encodings (spec/30_encoding.md) and the pseudo-operations (R79). A command word and a packed operand are first taken
apart into their fields and put together again; the round trip of the encoder and the mask of each op code follow. The
pseudo-operations are then run item by item, each item being the request that the instruction is encoded to. -/

namespace Sys2Proof

open Machine

/-! ## Words put together and taken apart (R68, R70) -/

theorem commandWord_fields (cw : CommandWord) :
    commandWord (opField cw) (nField cw) (gField cw) (operandField cw) = cw :=
  calc cw.extractLsb' 24 4 ++ cw.extractLsb' 19 5 ++ cw.extractLsb' 16 3 ++ cw.extractLsb' 0 16
    _ = cw.extractLsb' 0 28 := by simp only [BitVec.extractLsb'_append_extractLsb'_eq_extractLsb']
    _ = cw := BitVec.extractLsb'_eq_self

theorem commandWord_and (op op' : BitVec 4) (n n' : BitVec 5) (g g' : BitVec 3) (x x' : Word) :
    commandWord op n g x &&& commandWord op' n' g' x' =
      commandWord (op &&& op') (n &&& n') (g &&& g') (x &&& x') :=
  calc (op ++ n ++ g ++ x) &&& (op' ++ n' ++ g' ++ x')
    _ = (op &&& op') ++ (n &&& n') ++ (g &&& g') ++ (x &&& x') := by simp only [BitVec.and_append]

/-- The eight fields of a word, put together with bit 0 written as zero. -/
theorem packFields_fields_zero (x : Word) :
    packFields (fieldSs x) (fieldMux x) (fieldPga x) (fieldMode x) (fieldDr x) (fieldTs x) (fieldPu x) (fieldNop x) 0#1 =
      x &&& 0xFFFE#16 :=
  have bits : x.extractLsb' 1 15 ++ x.extractLsb' 0 1 = x :=
    (BitVec.extractLsb'_append_extractLsb'_eq_extractLsb' rfl).trans BitVec.extractLsb'_eq_self
  calc x.extractLsb' 15 1 ++ x.extractLsb' 12 3 ++ x.extractLsb' 9 3 ++ x.extractLsb' 8 1 ++ x.extractLsb' 5 3 ++
        x.extractLsb' 4 1 ++ x.extractLsb' 3 1 ++ x.extractLsb' 1 2 ++ 0#1
    _ = x.extractLsb' 1 15 ++ 0#1 := by simp only [BitVec.extractLsb'_append_extractLsb'_eq_extractLsb']
    _ = (x.extractLsb' 1 15 ++ x.extractLsb' 0 1) &&& (BitVec.allOnes 15 ++ 0#1) := by
      rw [BitVec.and_append, BitVec.and_allOnes, BitVec.and_zero]
    _ = x &&& 0xFFFE#16 := congrArg (· &&& 0xFFFE#16) bits

/-- Each field of an assembled word is the piece put there (R60, R70). -/
theorem fields_packFields (ss : BitVec 1) (mux pga : BitVec 3) (mode : BitVec 1) (dr : BitVec 3) (ts pu : BitVec 1)
    (nop : BitVec 2) (b : BitVec 1) :
    let w := packFields ss mux pga mode dr ts pu nop b
    fieldSs w = ss ∧ fieldMux w = mux ∧ fieldPga w = pga ∧ fieldMode w = mode ∧ fieldDr w = dr ∧ fieldTs w = ts ∧
      fieldPu w = pu ∧ fieldNop w = nop := by
  refine ⟨?_, ?_, ?_, ?_, ?_, ?_, ?_, ?_⟩
  all_goals
    refine BitVec.eq_of_getLsbD_eq fun i hi => (bitField_getLsbD _ _ _ i).trans ?_
    rw [packFields_getLsbD _ _ _ _ _ _ _ _ _ (by omega)]
    interval_cases i <;> rfl

theorem decodePackOperand_eq (x : Word) :
    decodePackOperand x = .cfgPack (fieldSs x) (fieldMux x) (fieldPga x) (fieldMode x) (fieldDr x) (fieldTs x) (fieldPu x)
      (fieldNop x) := rfl

theorem decodePackOperand_packFields (ss : BitVec 1) (mux pga : BitVec 3) (mode : BitVec 1) (dr : BitVec 3)
    (ts pu : BitVec 1) (nop : BitVec 2) (b : BitVec 1) :
    decodePackOperand (packFields ss mux pga mode dr ts pu nop b) = .cfgPack ss mux pga mode dr ts pu nop :=
  (Instr.cfgPack.injEq ..).mpr (fields_packFields ss mux pga mode dr ts pu nop b)

/-! ## The round trip (R68, R72, R80) -/

/-- A command word that the encoder writes is read back, operand by operand. -/
theorem decodeCommandWord_of_encodeCommandWord {i : Instr} {cw : CommandWord} (h : encodeCommandWord i = some cw) :
    decodeCommandWord cw = i := by
  cases i with
  | busWr | busRd => cases h
  | cfgPack =>
    obtain rfl := Option.some.inj h
    simp [decodeCommandWord, decodePackOperand_packFields]
  | _ =>
    obtain rfl := Option.some.inj h
    simp [decodeCommandWord]

theorem encode_of_command {i : Instr} (hi : isTransaction i = false) :
    ∃ cw, encodeCommandWord i = some cw ∧ encode i = .command cw.toNat := by
  cases i with
  | busWr | busRd => cases hi
  | _ => exact ⟨_, rfl, rfl⟩

theorem decode_wireBytes_write (w : Word) : decode (.transaction .write (wireBytes w)) = .ok (.busWr w) :=
  congrArg (fun v => Except.ok (Instr.busWr v)) (highByte_append_lowByte w)

theorem decode_wireBytes_read (next : Word) : decode (.transaction .read (wireBytes next)) = .ok (.busRd next) :=
  congrArg (fun v => Except.ok (Instr.busRd v)) (highByte_append_lowByte next)

theorem decode_encode (i : Instr) : decode (encode i) = .ok i := by
  cases hi : isTransaction i with
  | false =>
    obtain ⟨cw, coded, request⟩ := encode_of_command hi
    rw [request, decode_command_toNat, decodeCommandWord_of_encodeCommandWord coded]
  | true =>
    obtain ⟨w, rfl | rfl⟩ := isTransaction_cases hi
    · exact decode_wireBytes_write w
    · exact decode_wireBytes_read w

/-- Settles O41: a command by the fields of its word, a transaction by its two bytes. -/
theorem decodeOfEncodeIsTheInstruction : Obligations.DecodeOfEncodeIsTheInstruction := by
  unfold Obligations.DecodeOfEncodeIsTheInstruction
  exact decode_encode

/-! ## The bits a command uses (R76) -/

/-- The bits of a command word that its op code uses, field by field as `commandWord` lays them out. -/
def usedBits (op : BitVec 4) : CommandWord :=
  match op.toNat with
  | 0 => commandWord 0xF 0 0 0xFFFE
  | 2 | 3 | 4 => commandWord 0xF 0x1F 0 0xFFFF
  | 5 => commandWord 0xF 0x1F 0 0
  | 9 | 10 => commandWord 0xF 0 0x7 0xFFFF
  | 12 | 13 | 14 | 15 => commandWord 0xF 0 0 0
  | _ => commandWord 0xF 0 0 0xFFFF

theorem opCode_cases (op : BitVec 4) :
    op = 0x0 ∨ op = 0x1 ∨ op = 0x2 ∨ op = 0x3 ∨ op = 0x4 ∨ op = 0x5 ∨ op = 0x6 ∨ op = 0x7 ∨ op = 0x8 ∨ op = 0x9 ∨
      op = 0xA ∨ op = 0xB ∨ op = 0xC ∨ op = 0xD ∨ op = 0xE ∨ op = 0xF := by
  revert op
  decide

/-- The encoder writes the fields that the decoder read, and zero elsewhere. -/
theorem encodeCommandWord_decodeCommandWord (cw : CommandWord) :
    encodeCommandWord (decodeCommandWord cw) = some (cw &&& usedBits (opField cw)) := by
  obtain ⟨op, n, g, x, rfl⟩ : ∃ op n g x, cw = commandWord op n g x := ⟨_, _, _, _, (commandWord_fields cw).symm⟩
  have whole_n : n &&& 0x1F#5 = n := BitVec.and_allOnes
  have whole_g : g &&& 0x7#3 = g := BitVec.and_allOnes
  have whole_x : x &&& 0xFFFF#16 = x := BitVec.and_allOnes
  rcases opCode_cases op with rfl | rfl | rfl | rfl | rfl | rfl | rfl | rfl | rfl | rfl | rfl | rfl | rfl | rfl | rfl | rfl
  all_goals
    simp [decodeCommandWord, decodePackOperand_eq, encodeCommandWord, packFields_fields_zero, usedBits, commandWord_and,
      whole_n, whole_g, whole_x]

/-- Settles O42: the kept bits by op code; the word left is the encoder's, so the round trip reads it back. -/
theorem onlyUsedBitsOfACommandWordMatter : Obligations.OnlyUsedBitsOfACommandWordMatter := by
  unfold Obligations.OnlyUsedBitsOfACommandWordMatter
  intro cw
  have kept := encodeCommandWord_decodeCommandWord cw
  exact ⟨usedBits (opField cw), kept, rfl, decodeCommandWord_of_encodeCommandWord kept⟩

/-! ## Words written out -/

/-- Settles O44: closed words, evaluated. -/
theorem listedWordsDecode : Obligations.ListedWordsDecode := by
  unfold Obligations.ListedWordsDecode
  decide

namespace Machine

/-! ## Runs, item by item (R23, R79) -/

section
variable {s t : State} {item : HostItem} {rest : List HostItem}

theorem runWith_cons {d : Bool × Word} (h : stepWith d.1 d.2 s = .next t) (ds : List (Bool × Word)) :
    runWith (d :: ds) s = runWith ds t := by
  rw [runWith, h]

theorem runWith_append {ds : List (Bool × Word)} (h : runWith ds s = .next t) (more : List (Bool × Word)) :
    runWith (ds ++ more) s = runWith more t := by
  induction ds generalizing s with
  | nil => rw [Host.Outcome.next.inj h, List.nil_append]
  | cons d ds ih =>
    rw [runWith] at h
    split at h
    case h_1 u first => rw [List.cons_append, runWith_cons first, ih h]
    case h_2 | h_3 => cases h

/-- An item that stands for the request of `i` runs `i`. -/
theorem stepWith_of_exec {i : Instr} (hp : s.program = item :: rest) (hr : item.request s = some (encode i))
    (run : exec i (s.present (encode i)) = .next t) (ready : Bool) (conv : Word) :
    stepWith ready conv s = .next (t.deviceRuns ready conv) := by
  rw [stepWith, fetch_of_decode_ok hp hr (decode_encode i)]
  exact andThen_eq_next.2 ⟨t, run, rfl⟩

/-- CFG.SPLIT, the first item of every pseudo-operation that uses the bus: what it leaves to be sent is the word. -/
theorem stepWith_split {w : Word} (hp : s.program = .issue (encode (.cfgSplit w)) :: rest) (ready : Bool) (conv : Word) :
    ∃ t, stepWith ready conv s = .next t ∧ t.program = rest ∧ t.cfg = s.cfg ∧ t.bus = s.bus ∧
      t.dev = { s.dev with ready := ready, conv := conv } ∧
      (HostItem.sendSplit .write).request t = some (encode (.busWr w)) ∧
      (HostItem.sendSplit .read).request t = some (encode (.busRd w)) :=
  ⟨_, stepWith_of_exec hp rfl rfl ready conv, by simp [hp], by simp, by simp, by simp, rfl, rfl⟩

/-! ## WRITE.CFG -/

theorem exec_busWr_of_line_free (w : Word) (free : s.bus.selected = false) : ∃ t, exec (.busWr w) s = .next t := by
  rw [exec_busWr_eq, execBusWr, free]
  exact ⟨_, rfl⟩

/-- Settles O55: the split leaves the device's register and the bus alone; the write then sends the two bytes. -/
theorem writeCfgWritesTheWord : Obligations.WriteCfgWritesTheWord := by
  unfold Obligations.WriteCfgWritesTheWord
  intro w s rest d₁ d₂ free
  obtain ⟨t, first, program, -, bus, dev, request, -⟩ :=
    stepWith_split (s := { s with program := writeCfgItems w ++ rest }) rfl d₁.1 d₁.2
  obtain ⟨u, sent⟩ := exec_busWr_of_line_free w (s := t) (by rw [bus]; exact free)
  obtain ⟨-, -, dev', program', -, -, -, trace⟩ := exec_busWr sent
  have second := stepWith_of_exec program request sent d₂.1 d₂.2
  refine ⟨_, Config.freeByte t.draws, Config.freeByte (t.draws + 1),
    (runWith_cons first _).trans (runWith_cons second []), ?_, ?_, ?_, ?_⟩
  · rw [State.deviceRuns_program, program', program]; rfl
  · simp [dev', dev]
  · simp [dev', dev]
  · rw [State.deviceRuns_bus, trace, bus]; rfl

/-! ## READ.RAW and the conversions -/

theorem exec_busRd_of_ready (next : Word) (ready : s.dev.ready = true) : ∃ t, exec (.busRd next) s = .next t := by
  rw [exec_busRd_eq, execBusRd, ready]
  exact ⟨_, rfl⟩

theorem joinBytes_eq_append (bh bl : Byte) : joinBytes bh bl = bh ++ bl :=
  BitVec.setWidth_append_eq_shiftLeft_setWidth_or.symm.trans (BitVec.setWidth_eq _)

theorem joinBytes_highByte_lowByte (w : Word) : joinBytes (highByte w) (lowByte w) = w := by
  rw [joinBytes_eq_append, highByte_append_lowByte]

/-- A conversion read of a ready device: the word sent is written, the two bytes received are those of the sample. -/
theorem stepWith_read_of_ready {next : Word} (hp : s.program = item :: rest)
    (hr : item.request s = some (encode (.busRd next))) (polled : s.dev.ready = true) (ready : Bool) (conv : Word) :
    ∃ t, stepWith ready conv s = .next t ∧ t.program = rest ∧ t.cfg = s.cfg ∧
      t.dev.config = (s.dev.write next).config ∧
      HostItem.joinReceived.request t = some (encode (.smpJoin (highByte s.dev.conv) (lowByte s.dev.conv))) := by
  obtain ⟨u, read⟩ := exec_busRd_of_ready next polled
  obtain ⟨frame, -, ⟨-, dev, program, -, high, low, -⟩ | ⟨unready, -⟩⟩ := exec_busRd read
  · refine ⟨_, stepWith_of_exec hp hr read ready conv, ?_, frame.cfg, ?_, ?_⟩
    · rw [State.deviceRuns_program, program, hp]; rfl
    · rw [State.deviceRuns_dev, dev]; rfl
    · rw [HostItem.request, State.deviceRuns_bus, high, low]
  · cases polled.symm.trans unready

/-- READ.RAW of a device that is ready with `raw` when polled. -/
theorem runWith_readRaw (next raw : Word) (s : State) (rest : List HostItem) (d₂ d₃ : Bool × Word) :
    ∃ t, runWith [(true, raw), d₂, d₃] { s with program := readRawItems next ++ rest } = .next t ∧
      t.program = rest ∧ t.cfg = s.cfg ∧ t.out.y = raw ∧ t.dev.config = (s.dev.write next).config := by
  obtain ⟨t, first, program, cfg, -, dev, -, request⟩ :=
    stepWith_split (s := { s with program := readRawItems next ++ rest }) rfl true raw
  obtain ⟨u, second, program', cfg', config, request'⟩ :=
    stepWith_read_of_ready program request (by rw [dev]) d₂.1 d₂.2
  have third := stepWith_of_exec program' request' rfl d₃.1 d₃.2
  refine ⟨_, ((runWith_cons first _).trans (runWith_cons second _)).trans (runWith_cons third []), ?_, ?_, ?_, ?_⟩
  · simp [program']
  · simp [cfg', cfg]
  · rw [dev]
    exact joinBytes_highByte_lowByte raw
  · simp [config, dev]

/-- READ.RAW and a command that converts the sample. -/
theorem runWith_readRaw_convert {next raw : Word} {s : State} {i : Instr} {set : OutPorts → OutPorts} {v : Status}
    (request : ∀ t : State, t.out.y = raw → item.request t = some (encode i))
    (answers : ∀ t : State, t.cfg = s.cfg → exec i t = .next (t.answer set v))
    (rest : List HostItem) (d₂ d₃ d₄ : Bool × Word) :
    ∃ t, runWith [(true, raw), d₂, d₃, d₄] { s with program := readRawItems next ++ item :: rest } = .next t ∧
      t.program = rest ∧ (∃ o, t.out = set o) ∧ t.dev.config = (s.dev.write next).config := by
  obtain ⟨t, read, program, cfg, y, config⟩ := runWith_readRaw next raw s (item :: rest) d₂ d₃
  have converted := stepWith_of_exec program (request t y) (answers _ ((t.present_cfg _).trans cfg)) d₄.1 d₄.2
  refine ⟨_, (runWith_append read [d₄]).trans (runWith_cons converted []), ?_, ⟨_, rfl⟩, ?_⟩
  · simp [program]
  · simp [config]

theorem exec_adcScale_of_gainRow {g : BitVec 3} {r : GainRow} (row : gainRow s.cfg g = some r) (a : Word) :
    exec (.adcScale g a) s = .next (s.answer (fun o => { o with yf := reading s.cfg.flt r a }) Status.clear) := by
  rw [exec_adcScale_eq, execAdcScale, row]

theorem exec_adcMv_of_gainRow {g : BitVec 3} {r : GainRow} (row : gainRow s.cfg g = some r) (a : Word) :
    exec (.adcMv g a) s = .next (s.answer (fun o => { o with y := trunc16 (millivolts s.cfg.flt r a) })
      (overflowStatus (millivolts s.cfg.flt r a))) := by
  rw [exec_adcMv_eq, execAdcMv, row]

end

/-- Settles O56: the three read the sample alike, and differ in the command that converts it. -/
theorem readPseudoOperationsConvertTheSample : Obligations.ReadPseudoOperationsConvertTheSample := by
  unfold Obligations.ReadPseudoOperationsConvertTheSample
  intro next raw g r s rest d₂ d₃ d₄ row
  refine ⟨?volt, ?mv, ?temp⟩
  case volt =>
    obtain ⟨t, run, program, ⟨o, out⟩, config⟩ := runWith_readRaw_convert (next := next) (item := .scaleY g)
      (fun _ y => by rw [HostItem.request, y]) (fun t same => by rw [exec_adcScale_of_gainRow (same ▸ row) raw, same])
      rest d₂ d₃ d₄
    exact ⟨t, run, program, by rw [out], config⟩
  case mv =>
    obtain ⟨t, run, program, ⟨o, out⟩, config⟩ := runWith_readRaw_convert (next := next) (item := .millivoltY g)
      (fun _ y => by rw [HostItem.request, y]) (fun t same => by rw [exec_adcMv_of_gainRow (same ▸ row) raw, same])
      rest d₂ d₃ d₄
    exact ⟨t, run, program, by rw [out], config⟩
  case temp =>
    obtain ⟨t, run, program, ⟨o, out⟩, config⟩ := runWith_readRaw_convert (next := next) (item := .temperatureY)
      (fun _ y => by rw [HostItem.request, y]) (fun t same => by rw [exec_tmpDec_eq, execTmpDec, same]) rest d₂ d₃ d₄
    exact ⟨t, run, program, by rw [out], config⟩

/-! ## The meaning of the field codes (R62 to R65) -/

/-- Settles O60: closed tables, evaluated. -/
theorem defaultFieldMeanings : Obligations.DefaultFieldMeanings := by
  unfold Obligations.DefaultFieldMeanings
  decide

end Machine
end Sys2Proof
end

section
/-! The Register Codec (spec/40_register_codec.md). The facts about words come first: the assembled word as a sum of shifted
fields, its fields, and what the bit accessors do to one bit. Then each command's own rule, said once as what it answers; the
statements put the two together. -/

namespace Sys2Proof

open Machine

/-! ## The assembled word (R70, R91) -/

/-- The pieces side by side are the pieces shifted to their places. -/
theorem packFields_eq_or_shiftLeft (ss : BitVec 1) (mux pga : BitVec 3) (mode : BitVec 1) (dr : BitVec 3) (ts pu : BitVec 1)
    (nop : BitVec 2) (b : BitVec 1) :
    packFields ss mux pga mode dr ts pu nop b =
      (ss.zeroExtend 16 <<< 15) ||| (mux.zeroExtend 16 <<< 12) ||| (pga.zeroExtend 16 <<< 9) |||
        (mode.zeroExtend 16 <<< 8) ||| (dr.zeroExtend 16 <<< 5) ||| (ts.zeroExtend 16 <<< 4) |||
        (pu.zeroExtend 16 <<< 3) ||| (nop.zeroExtend 16 <<< 1) ||| b.zeroExtend 16 :=
  calc packFields ss mux pga mode dr ts pu nop b
    _ = (ss ++ mux ++ pga ++ mode ++ dr ++ ts ++ pu ++ nop ++ b).setWidth 16 := (BitVec.setWidth_eq _).symm
    _ = _ := by
      simp only [BitVec.setWidth_append_eq_shiftLeft_setWidth_or, BitVec.shiftLeft_or_distrib, ← BitVec.shiftLeft_add]

/-- Bit 0 is the only place of the last piece. -/
theorem packFields_eq_or_bitZero (ss : BitVec 1) (mux pga : BitVec 3) (mode : BitVec 1) (dr : BitVec 3) (ts pu : BitVec 1)
    (nop : BitVec 2) (b : BitVec 1) :
    packFields ss mux pga mode dr ts pu nop b = packFields ss mux pga mode dr ts pu nop 0 ||| b.zeroExtend 16 := by
  simp only [packFields_eq_or_shiftLeft, BitVec.truncate_eq_setWidth, BitVec.ofNat_eq_ofNat, BitVec.setWidth_zero,
    BitVec.or_zero]

/-- The fields of a word, put together again with another bit 0 (R100). -/
theorem packFields_fields (x : Word) (b : BitVec 1) :
    packFields (fieldSs x) (fieldMux x) (fieldPga x) (fieldMode x) (fieldDr x) (fieldTs x) (fieldPu x) (fieldNop x) b =
      (x &&& 0xFFFE#16) ||| b.zeroExtend 16 := by
  rw [packFields_eq_or_bitZero, ← packFields_fields_zero]
  rfl

theorem fieldRsv_packFields (ss : BitVec 1) (mux pga : BitVec 3) (mode : BitVec 1) (dr : BitVec 3) (ts pu : BitVec 1)
    (nop : BitVec 2) (b : BitVec 1) : fieldRsv (packFields ss mux pga mode dr ts pu nop b) = b :=
  calc (ss ++ mux ++ pga ++ mode ++ dr ++ ts ++ pu ++ nop ++ b).extractLsb' 0 1
    _ = b.extractLsb' 0 1 := BitVec.extractLsb'_append_eq_of_add_le (by decide)
    _ = b := BitVec.extractLsb'_eq_self

/-- The known preset is the word its name spells (R38, R101). -/
theorem knownPreset_eq_packFields : (0xC38B : Word) = packFields 1 4 1 1 4 0 1 1 1 := by decide

theorem bitField_one_eq_ofBool {n : Nat} (x : BitVec n) (i : Nat) : bitField x i 1 = BitVec.ofBool (x.getLsbD i) := by
  refine BitVec.eq_of_getLsbD_eq fun j hj => ?_
  obtain rfl : j = 0 := by omega
  rw [bitField_getLsbD, BitVec.getLsbD_ofBool]
  rfl

namespace Machine

/-! ## The bit accessors (R93 to R95) -/

section
variable (a : Word) {n : BitVec 5}

theorem indexOutOfRange_iff (n : BitVec 5) : indexOutOfRange n = true ↔ ¬ n.toNat ≤ 15 := by
  rw [indexOutOfRange, decide_eq_true_iff]
  omega

theorem testBit_eq_ite (n : BitVec 5) :
    testBit a n = if n.toNat ≤ 15 then BitVec.ofBool (a.getLsbD n.toNat) else 0 := by
  simp only [testBit, indexOutOfRange_iff, ite_not, bitField_one_eq_ofBool]

theorem setBit_eq_ite (n : BitVec 5) : setBit a n = if n.toNat ≤ 15 then a ||| (1#16 <<< n.toNat) else a := by
  simp only [setBit, indexOutOfRange_iff, ite_not]

theorem clearBit_eq_ite (n : BitVec 5) : clearBit a n = if n.toNat ≤ 15 then a &&& ~~~(1#16 <<< n.toNat) else a := by
  simp only [clearBit, indexOutOfRange_iff, ite_not]

theorem testBit_of_le (h : n.toNat ≤ 15) : testBit a n = BitVec.ofBool (a.getLsbD n.toNat) :=
  (testBit_eq_ite a n).trans (if_pos h)

/-- Setting a bit gives that bit and leaves every other one. -/
theorem setBit_getLsbD (h : n.toNat ≤ 15) (m : Nat) :
    (setBit a n).getLsbD m = (a.getLsbD m || decide (n.toNat = m)) := by
  rw [setBit_eq_ite, if_pos h, BitVec.getLsbD_or, ← BitVec.twoPow_eq, BitVec.getLsbD_twoPow,
    decide_eq_true (show n.toNat < 16 by omega), Bool.true_and]

/-- Clearing a bit takes that bit and leaves every other one. -/
theorem clearBit_getLsbD (h : n.toNat ≤ 15) (m : Nat) :
    (clearBit a n).getLsbD m = (a.getLsbD m && !decide (n.toNat = m)) := by
  by_cases inside : m < 16
  · rw [clearBit_eq_ite, if_pos h, BitVec.getLsbD_and, BitVec.getLsbD_not, ← BitVec.twoPow_eq, BitVec.getLsbD_twoPow,
      decide_eq_true inside, decide_eq_true (show n.toNat < 16 by omega), Bool.true_and, Bool.true_and]
  · rw [BitVec.getLsbD_of_ge _ m (by omega), BitVec.getLsbD_of_ge _ m (by omega), Bool.false_and]

theorem testBit_setBit (h : n.toNat ≤ 15) : testBit (setBit a n) n = 1 := by
  rw [testBit_of_le _ h, setBit_getLsbD a h, decide_eq_true rfl, Bool.or_true]
  rfl

theorem testBit_clearBit (h : n.toNat ≤ 15) : testBit (clearBit a n) n = 0 := by
  rw [testBit_of_le _ h, clearBit_getLsbD a h, decide_eq_true rfl, Bool.not_true, Bool.and_false]
  rfl

theorem setBit_getLsbD_of_ne (h : n.toNat ≤ 15) {m : Nat} (other : m ≠ n.toNat) :
    (setBit a n).getLsbD m = a.getLsbD m := by
  rw [setBit_getLsbD a h, decide_eq_false other.symm, Bool.or_false]

theorem clearBit_getLsbD_of_ne (h : n.toNat ≤ 15) {m : Nat} (other : m ≠ n.toNat) :
    (clearBit a n).getLsbD m = a.getLsbD m := by
  rw [clearBit_getLsbD a h, decide_eq_false other.symm, Bool.not_false, Bool.and_true]

theorem clearBit_setBit (h : n.toNat ≤ 15) : clearBit (setBit a n) n = clearBit a n := by
  refine BitVec.eq_of_getLsbD_eq fun m _ => ?_
  rw [clearBit_getLsbD _ h, clearBit_getLsbD _ h, setBit_getLsbD a h, Bool.and_or_distrib_right,
    Bool.and_not_self, Bool.or_false]

end

/-! ## What each command answers (R91 to R97) -/

theorem exec_cfgPack (ss : BitVec 1) (mux pga : BitVec 3) (mode : BitVec 1) (dr : BitVec 3) (ts pu : BitVec 1)
    (nop : BitVec 2) (s : State) :
    ∃ t, exec (.cfgPack ss mux pga mode dr ts pu nop) s = .next t ∧ Answered s t Status.clear ∧
      t.out.y = packFields ss mux pga mode dr ts pu nop s.cfg.packBit0 :=
  ⟨_, exec_cfgPack_eq .., answer_answered .., rfl⟩

/-- The nine `q` outputs show the fields of a word (R92). -/
structure ShowsFields (o : OutPorts) (w : Word) : Prop where
  ss : o.q_ss = fieldSs w
  mux : o.q_mux = fieldMux w
  pga : o.q_pga = fieldPga w
  mode : o.q_mode = fieldMode w
  dr : o.q_dr = fieldDr w
  ts : o.q_ts = fieldTs w
  pu : o.q_pu = fieldPu w
  nop : o.q_nop = fieldNop w
  rsv : o.q_rsv = fieldRsv w

theorem exec_cfgUnpack (a : Word) (s : State) :
    ∃ t, exec (.cfgUnpack a) s = .next t ∧ Answered s t Status.clear ∧ ShowsFields t.out a :=
  ⟨_, exec_cfgUnpack_eq .., answer_answered .., rfl, rfl, rfl, rfl, rfl, rfl, rfl, rfl, rfl⟩

theorem exec_cfgBtst (n : BitVec 5) (a : Word) (s : State) :
    ∃ t, exec (.cfgBtst n a) s = .next t ∧ Answered s t (bitIndexStatus n) ∧ t.out.yb = testBit a n :=
  ⟨_, exec_cfgBtst_eq .., answer_answered .., rfl⟩

theorem exec_cfgBset (n : BitVec 5) (a : Word) (s : State) :
    ∃ t, exec (.cfgBset n a) s = .next t ∧ Answered s t (bitIndexStatus n) ∧ t.out.y = setBit a n :=
  ⟨_, exec_cfgBset_eq .., answer_answered .., rfl⟩

theorem exec_cfgBclr (n : BitVec 5) (a : Word) (s : State) :
    ∃ t, exec (.cfgBclr n a) s = .next t ∧ Answered s t (bitIndexStatus n) ∧ t.out.y = clearBit a n :=
  ⟨_, exec_cfgBclr_eq .., answer_answered .., rfl⟩

theorem exec_cfgPreset_of_lookup_some {n : BitVec 5} {s : State} {w : Word} (known : s.cfg.presets.lookup n = some w) :
    ∃ t, exec (.cfgPreset n) s = .next t ∧ Answered s t Status.clear ∧ t.out.y = w :=
  ⟨_, by rw [exec_cfgPreset_eq, execCfgPreset, known], answer_answered .., rfl⟩

theorem exec_cfgPreset_of_lookup_none {n : BitVec 5} {s : State} (unknown : s.cfg.presets.lookup n = none) :
    ∃ t, exec (.cfgPreset n) s = .next t ∧ Faulted s t (.invalidPreset n) :=
  ⟨_, by rw [exec_cfgPreset_eq, execCfgPreset, unknown], raise_faulted ..⟩

theorem exec_cfgSplit (a : Word) (s : State) :
    ∃ t, exec (.cfgSplit a) s = .next t ∧ Answered s t Status.clear ∧ t.out.yh = highByte a ∧ t.out.yl = lowByte a :=
  ⟨_, exec_cfgSplit_eq .., answer_answered .., rfl, rfl⟩

/-- CFG.UNPACK of an assembled word gives the pieces. -/
theorem exec_cfgUnpack_packFields (ss : BitVec 1) (mux pga : BitVec 3) (mode : BitVec 1) (dr : BitVec 3) (ts pu : BitVec 1)
    (nop : BitVec 2) (b : BitVec 1) (s : State) :
    ∃ u, exec (.cfgUnpack (packFields ss mux pga mode dr ts pu nop b)) s = .next u ∧
      u.out.q_ss = ss ∧ u.out.q_mux = mux ∧ u.out.q_pga = pga ∧ u.out.q_mode = mode ∧ u.out.q_dr = dr ∧ u.out.q_ts = ts ∧
      u.out.q_pu = pu ∧ u.out.q_nop = nop ∧ u.out.q_rsv = b := by
  obtain ⟨u, unpack, -, q⟩ := exec_cfgUnpack (packFields ss mux pga mode dr ts pu nop b) s
  obtain ⟨hss, hmux, hpga, hmode, hdr, hts, hpu, hnop⟩ := fields_packFields ss mux pga mode dr ts pu nop b
  exact ⟨u, unpack, q.ss.trans hss, q.mux.trans hmux, q.pga.trans hpga, q.mode.trans hmode, q.dr.trans hdr,
    q.ts.trans hts, q.pu.trans hpu, q.nop.trans hnop, q.rsv.trans (fieldRsv_packFields ..)⟩

/-! ## Packing and unpacking (R98, R100) -/

/-- Settles O25: what CFG.PACK answers is an assembled word. -/
theorem unpackOfPackReturnsTheFields : Obligations.UnpackOfPackReturnsTheFields := by
  unfold Obligations.UnpackOfPackReturnsTheFields
  intro ss mux pga mode dr ts pu nop s
  obtain ⟨t, pack, -, y⟩ := exec_cfgPack ss mux pga mode dr ts pu nop s
  obtain ⟨u, unpack, fields⟩ := exec_cfgUnpack_packFields ss mux pga mode dr ts pu nop s.cfg.packBit0 t
  exact ⟨t, u, pack, by rw [y, unpack], fields⟩

/-- Settles O26: the fields of the word, put together again with `PACK_BIT0`. -/
theorem packOfUnpackForcesBitZero : Obligations.PackOfUnpackForcesBitZero := by
  unfold Obligations.PackOfUnpackForcesBitZero
  intro w s
  obtain ⟨t, unpack, answered, q⟩ := exec_cfgUnpack w s
  obtain ⟨u, pack, -, y⟩ := exec_cfgPack t.out.q_ss t.out.q_mux t.out.q_pga t.out.q_mode t.out.q_dr t.out.q_ts t.out.q_pu
    t.out.q_nop t
  refine ⟨t, u, unpack, pack, y.trans ?_⟩
  rw [q.ss, q.mux, q.pga, q.mode, q.dr, q.ts, q.pu, q.nop, answered.frame.cfg]
  exact packFields_fields w s.cfg.packBit0

/-! ## The laws of the bit accessors (R99) -/

/-- Settles O27: the laws of `testBit`, `setBit` and `clearBit`, read off the answers. -/
theorem bitAccessorsObeyTheirLaws : Obligations.BitAccessorsObeyTheirLaws := by
  unfold Obligations.BitAccessorsObeyTheirLaws
  intro n a s inside
  obtain ⟨t, set, -, ySet⟩ := exec_cfgBset n a s
  obtain ⟨u, clear, -, yClear⟩ := exec_cfgBclr n a s
  refine ⟨t, u, set, clear, ?testSet, ?testClear, fun m other => ?others, ?clearSet, ?fields⟩
  case testSet =>
    obtain ⟨v, test, -, yb⟩ := exec_cfgBtst n t.out.y t
    exact ⟨v, test, by rw [yb, ySet, testBit_setBit a inside]⟩
  case testClear =>
    obtain ⟨v, test, -, yb⟩ := exec_cfgBtst n u.out.y u
    exact ⟨v, test, by rw [yb, yClear, testBit_clearBit a inside]⟩
  case others =>
    rw [ySet, yClear]
    exact ⟨setBit_getLsbD_of_ne a inside other, clearBit_getLsbD_of_ne a inside other⟩
  case clearSet =>
    obtain ⟨v, again, -, y⟩ := exec_cfgBclr n t.out.y t
    exact ⟨v, again, by rw [y, ySet, yClear, clearBit_setBit a inside]⟩
  case fields =>
    obtain ⟨v, test, -, yb⟩ := exec_cfgBtst n a s
    obtain ⟨w, unpack, -, q⟩ := exec_cfgUnpack a s
    rw [testBit_of_le a inside, ← bitField_one_eq_ofBool] at yb
    refine ⟨v, w, test, unpack, ?_, ?_, ?_, ?_, ?_⟩ <;> rintro rfl
    · exact yb.trans q.ss.symm
    · exact yb.trans q.mode.symm
    · exact yb.trans q.ts.symm
    · exact yb.trans q.pu.symm
    · exact yb.trans q.rsv.symm

/-! ## Each command with its encoding (R91 to R97) -/

/-- Settles O1: the assembled word as shifted fields. -/
theorem cfgPackPlacesEveryField : Obligations.CfgPackPlacesEveryField := by
  unfold Obligations.CfgPackPlacesEveryField
  intro ss mux pga mode dr ts pu nop s
  obtain ⟨t, pack, answered, y⟩ := exec_cfgPack ss mux pga mode dr ts pu nop s
  exact ⟨⟨t, pack, answered, y.trans (packFields_eq_or_shiftLeft ..)⟩, rfl⟩

/-- Settles O2: the nine `q` outputs are the nine fields. -/
theorem cfgUnpackSplitsTheWord : Obligations.CfgUnpackSplitsTheWord := by
  unfold Obligations.CfgUnpackSplitsTheWord
  intro a s
  obtain ⟨t, unpack, answered, q⟩ := exec_cfgUnpack a s
  exact ⟨⟨t, unpack, answered, q.ss, q.mux, q.pga, q.mode, q.dr, q.ts, q.pu, q.nop, q.rsv⟩, rfl⟩

/-- Settles O3, by `testBit` on both sides of index 16. -/
theorem cfgBtstTestsTheBit : Obligations.CfgBtstTestsTheBit := by
  unfold Obligations.CfgBtstTestsTheBit
  intro n a s
  obtain ⟨t, test, answered, yb⟩ := exec_cfgBtst n a s
  exact ⟨⟨t, test, answered, yb.trans (testBit_eq_ite a n)⟩, rfl⟩

/-- Settles O4, by `setBit` on both sides of index 16. -/
theorem cfgBsetSetsTheBit : Obligations.CfgBsetSetsTheBit := by
  unfold Obligations.CfgBsetSetsTheBit
  intro n a s
  obtain ⟨t, set, answered, y⟩ := exec_cfgBset n a s
  exact ⟨⟨t, set, answered, y.trans (setBit_eq_ite a n)⟩, rfl⟩

/-- Settles O5, by `clearBit` on both sides of index 16. -/
theorem cfgBclrClearsTheBit : Obligations.CfgBclrClearsTheBit := by
  unfold Obligations.CfgBclrClearsTheBit
  intro n a s
  obtain ⟨t, clear, answered, y⟩ := exec_cfgBclr n a s
  exact ⟨⟨t, clear, answered, y.trans (clearBit_eq_ite a n)⟩, rfl⟩

/-- Settles O8: the two bytes are fields of the word. -/
theorem cfgSplitGivesTheTwoBytes : Obligations.CfgSplitGivesTheTwoBytes := by
  unfold Obligations.CfgSplitGivesTheTwoBytes
  intro a s
  obtain ⟨t, split, answered, high, low⟩ := exec_cfgSplit a s
  exact ⟨⟨t, split, answered, high, low⟩, rfl⟩

/-! ## The catalog (R38, R96, R101, R173) -/

theorem defaultPresets_lookup (n : BitVec 5) : defaultPresets.lookup n = if n = 0 then some 0xC38B else none := by
  by_cases h : n = 0
  · rw [if_pos h, h]
    rfl
  · rw [if_neg h, defaultPresets, List.lookup_cons, beq_false_of_ne h]
    rfl

/-- Settles O7: the catalog has the index or not; the default catalog's word is the assembled one. -/
theorem cfgPresetFetchesTheLiteral : Obligations.CfgPresetFetchesTheLiteral := by
  unfold Obligations.CfgPresetFetchesTheLiteral
  intro n s
  refine ⟨fun w known => exec_cfgPreset_of_lookup_some known, fun unknown => ?fault,
    fun catalog => catalog ▸ defaultPresets_lookup n, fun catalog bit => ?name, rfl⟩
  case fault =>
    obtain ⟨t, preset, faulted⟩ := exec_cfgPreset_of_lookup_none unknown
    exact ⟨t, preset, faulted, by rw [faulted.status, faultStatus]; decide⟩
  case name =>
    obtain ⟨t, preset, -, literal⟩ := exec_cfgPreset_of_lookup_some (catalog ▸ defaultPresets_lookup 0)
    obtain ⟨u, pack, -, assembled⟩ := exec_cfgPack 1 4 1 1 4 0 1 1 s
    refine ⟨t, u, preset, pack, ?_⟩
    rw [literal, assembled, bit]
    exact knownPreset_eq_packFields

/-- Settles O28: the known preset is an assembled word. -/
theorem knownPresetDecodesAsItsNameSays : Obligations.KnownPresetDecodesAsItsNameSays := by
  unfold Obligations.KnownPresetDecodesAsItsNameSays
  intro s wf
  obtain ⟨t, preset, -, literal⟩ := exec_cfgPreset_of_lookup_some (of_decide_eq_true wf)
  obtain ⟨u, unpack, fields⟩ := exec_cfgUnpack_packFields 1 4 1 1 4 0 1 1 1 t
  exact ⟨t, u, preset, by rw [literal, knownPreset_eq_packFields, unpack], fields⟩

end Machine
end Sys2Proof
end

section
/-! The Transport Handshake (spec/41_transport_handshake.md R110 to R119). Each transaction's own statement comes first. A run of
a read is then put together from them: `StillReading` says what polls of a device that is not ready leave behind, and its two
facts, for one poll and for polls after polls, give the run by induction on the device's values. -/

namespace Sys2Proof.Machine

/-! ## SMP.JOIN (R117) -/

theorem exec_smpJoin (bh bl : Byte) (s : State) :
    ∃ t, exec (.smpJoin bh bl) s = .next t ∧ Answered s t Status.clear ∧ t.out.y = joinBytes bh bl :=
  ⟨_, exec_smpJoin_eq .., answer_answered .., rfl⟩

/-- Settles O9: the joined word is the two bytes side by side, and CFG.SPLIT gives the two bytes of its word. -/
theorem smpJoinAssemblesTheSample : Obligations.SmpJoinAssemblesTheSample := by
  unfold Obligations.SmpJoinAssemblesTheSample
  refine ⟨fun bh bl s => ⟨?join, rfl⟩, fun a s => ?joinOfSplit⟩
  case join =>
    obtain ⟨t, join, answered, y⟩ := exec_smpJoin bh bl s
    exact ⟨t, join, answered, y.trans (joinBytes_eq_append bh bl), y⟩
  case joinOfSplit =>
    obtain ⟨t, split, -, high, low⟩ := exec_cfgSplit a s
    obtain ⟨u, join, -, y⟩ := exec_smpJoin t.out.yh t.out.yl t
    exact ⟨t, u, split, join, by rw [y, high, low, joinBytes_highByte_lowByte]⟩

/-! ## BUS.WR (R111, R112, R119) -/

/-- Settles O16: with the line free BUS.WR has a next state, and there is one way it can look. -/
theorem busWrSendsTwoBytes : Obligations.BusWrSendsTwoBytes := by
  unfold Obligations.BusWrSendsTwoBytes
  intro w s free
  obtain ⟨t, sent⟩ := exec_busWr_of_line_free w free
  obtain ⟨-, frame, dev, program, freed, high, low, trace⟩ := exec_busWr sent
  exact ⟨⟨t, _, _, sent, frame, dev, program, freed, high, low, trace⟩, rfl⟩

/-- Settles O17: the first thing BUS.WR looks at is the select line. -/
theorem busWrHasNoMoveInsideAnotherTransaction : Obligations.BusWrHasNoMoveInsideAnotherTransaction := by
  unfold Obligations.BusWrHasNoMoveInsideAnotherTransaction
  intro w s asserted
  rw [exec_busWr_eq, execBusWr, if_pos asserted]

/-! ## BUS.RD (R113, R114) -/

theorem exec_busRd_of_not_ready (next : Word) {s : State} (unready : s.dev.ready = false) :
    exec (.busRd next) s = .next s.selectAssert.poll := by
  rw [exec_busRd_eq, execBusRd, unready]
  rfl

/-- Asserting the line shows on the trace unless the line is asserted already (R110). -/
theorem Bus.assertSelect_trace_eq_append (b : Bus) :
    b.assertSelect.trace = b.trace ++ (if b.selected then [] else [.selectAssert]) := by
  rw [Bus.assertSelect_trace]
  cases b.selected with
  | false => rfl
  | true => exact (List.append_nil _).symm

/-- Settles O18: of the two ways a read can go on, the device being ready leaves the one that ends it. -/
theorem busRdReturnsTheSample : Obligations.BusRdReturnsTheSample := by
  unfold Obligations.BusRdReturnsTheSample
  intro next s ready
  obtain ⟨t, read⟩ := exec_busRd_of_ready next ready
  obtain ⟨frame, -, ⟨-, dev, program, freed, high, low, trace⟩ | ⟨unready, -⟩⟩ := exec_busRd read
  · rw [Bus.assertSelect_trace_eq_append] at trace
    exact ⟨⟨t, read, frame, program, high, low, dev, freed, trace⟩, rfl⟩
  · cases ready.symm.trans unready

/-- Settles O19: of the two ways a read can go on, the device not being ready leaves the one that polls again. -/
theorem busRdWaitsWhileNotReady : Obligations.BusRdWaitsWhileNotReady := by
  unfold Obligations.BusRdWaitsWhileNotReady
  intro next s unready
  have polls := exec_busRd_of_not_ready next unready
  obtain ⟨frame, -, ⟨ready, -⟩ | ⟨-, dev, program, asserted, high, low, trace⟩⟩ := exec_busRd polls
  · cases unready.symm.trans ready
  · rw [Bus.assertSelect_trace_eq_append] at trace
    exact ⟨_, polls, frame, program, dev, asserted, high, low, trace⟩

/-! ## The step that fetched a read (R23, R41) -/

theorem decode_of_fetch {s : State} {r : Request} {i : Instr} (fetched : s.fetch = .instruction r i) :
    decode r = .ok i := by
  obtain ⟨-, idle⟩ | ⟨item, rest, -, ⟨-, work⟩ | ⟨r', -, ⟨i', decoded, instruction⟩ | ⟨e, -, invalid⟩⟩⟩ := fetch_cases s
  · cases fetched.symm.trans idle
  · cases fetched.symm.trans work
  · obtain ⟨rfl, rfl⟩ := Fetched.instruction.inj (fetched.symm.trans instruction)
    exact decoded
  · cases fetched.symm.trans invalid

/-- A read drives no input port, so the step is the read and then the device running. -/
theorem stepWith_of_fetch_busRd {s t : State} {r : Request} {next : Word} (fetched : s.fetch = .instruction r (.busRd next))
    (read : exec (.busRd next) s = .next t) (ready : Bool) (conv : Word) :
    stepWith ready conv s = .next (t.deviceRuns ready conv) := by
  obtain ⟨hi, lo, rfl, -⟩ := decode_busRd (decode_of_fetch fetched)
  rw [stepWith, fetched]
  exact andThen_eq_next.2 ⟨t, read, rfl⟩

theorem BusFrame.refl (s : State) : BusFrame s s := ⟨rfl, rfl, rfl, rfl, rfl, rfl, rfl⟩

theorem BusFrame.trans {s t u : State} (first : BusFrame s t) (second : BusFrame t u) : BusFrame s u where
  cfg := second.cfg.trans first.cfg
  inp := second.inp.trans first.inp
  out := second.out.trans first.out
  st := second.st.trans first.st
  outcome := second.outcome.trans first.outcome
  faults := second.faults.trans first.faults
  avg := second.avg.trans first.avg

theorem busFrame_deviceRuns (s : State) (ready : Bool) (conv : Word) : BusFrame s (s.deviceRuns ready conv) :=
  ⟨rfl, rfl, rfl, rfl, rfl, rfl, rfl⟩

/-! ## A read that is still polling (R114) -/

/-- What `n` polls of a device that was not ready have made of `s`: the read is still to be done, and of the device only its
ready line and its output shift register, which are its own, may have moved (R30). The line is asserted once, at the first
poll, so the traces are compared with the line asserted; this covers `n = 0` as well. -/
structure StillReading (n : Nat) (s t : State) : Prop where
  frame : BusFrame s t
  program : t.program = s.program
  dev : t.dev = { s.dev with ready := t.dev.ready, conv := t.dev.conv }
  rxHigh : t.bus.rxHigh = s.bus.rxHigh
  rxLow : t.bus.rxLow = s.bus.rxLow
  asserted : s.bus.selected = true ∨ n ≠ 0 → t.bus.selected = true
  trace : t.bus.assertSelect.trace = s.bus.assertSelect.trace ++ List.replicate n (.poll false)

theorem Bus.assertSelect_of_selected {b : Bus} (selected : b.selected = true) : b.assertSelect = b := if_pos selected

namespace StillReading

variable {m n : Nat} {s t u : State}

theorem refl (s : State) : StillReading 0 s s where
  frame := .refl s
  program := rfl
  dev := rfl
  rxHigh := rfl
  rxLow := rfl
  asserted h := h.resolve_right (absurd rfl)
  trace := (List.append_nil _).symm

theorem trans (first : StillReading m s t) (second : StillReading n t u) : StillReading (m + n) s u where
  frame := first.frame.trans second.frame
  program := second.program.trans first.program
  dev := by rw [second.dev, first.dev]
  rxHigh := second.rxHigh.trans first.rxHigh
  rxLow := second.rxLow.trans first.rxLow
  asserted h := second.asserted <| by
    by_cases last : n = 0
    · exact .inl (first.asserted (by simpa [last] using h))
    · exact .inr last
  trace := by rw [second.trace, first.trace, List.append_assoc, List.replicate_append_replicate]

theorem deviceRuns (reading : StillReading n s t) (ready : Bool) (conv : Word) :
    StillReading n s (t.deviceRuns ready conv) where
  frame := reading.frame.trans (busFrame_deviceRuns t ready conv)
  program := reading.program
  dev := by rw [State.deviceRuns_dev, reading.dev]
  rxHigh := reading.rxHigh
  rxLow := reading.rxLow
  asserted := reading.asserted
  trace := reading.trace

/-- The host looks at nothing that a poll changes. -/
theorem fetch_eq (reading : StillReading n s t) : t.fetch = s.fetch :=
  State.fetch_congr reading.program reading.frame.out reading.rxHigh reading.rxLow

theorem write_dev (reading : StillReading n s t) (w : Word) :
    (t.dev.write w).config = (s.dev.write w).config ∧ (t.dev.write w).requests = (s.dev.write w).requests := by
  rw [reading.dev]
  exact ⟨rfl, rfl⟩

/-- After a poll the line is asserted, so the trace has the assertion in it. -/
theorem trace_eq (reading : StillReading n s t) (polled : n ≠ 0) :
    t.bus.trace = s.bus.trace ++ (if s.bus.selected then [] else [.selectAssert]) ++ List.replicate n (.poll false) := by
  have asserted := reading.asserted (.inr polled)
  rw [← Bus.assertSelect_trace_eq_append, ← reading.trace, Bus.assertSelect_of_selected asserted]

end StillReading

/-- One poll, by what BUS.RD does with a device that is not ready. -/
theorem stillReading_of_exec {next : Word} {s t : State} (unready : s.dev.ready = false)
    (poll : exec (.busRd next) s = .next t) : StillReading 1 s t := by
  obtain ⟨u, polls, frame, program, dev, asserted, high, low, trace⟩ := busRdWaitsWhileNotReady next s unready
  obtain rfl := Host.Outcome.next.inj (poll.symm.trans polls)
  refine ⟨frame, program, by rw [dev], high, low, fun _ => asserted, ?_⟩
  rw [Bus.assertSelect_of_selected asserted, trace, Bus.assertSelect_trace_eq_append]
  rfl

section
variable {s : State} {r : Request} {next : Word}

/-- A step with a device that is not ready polls once; then the device takes the values given. -/
theorem stepWith_read_of_not_ready (fetched : s.fetch = .instruction r (.busRd next)) (unready : s.dev.ready = false)
    (ready : Bool) (conv : Word) :
    ∃ t, stepWith ready conv s = .next t ∧ StillReading 1 s t ∧ t.dev.ready = ready ∧ t.dev.conv = conv :=
  have polls := exec_busRd_of_not_ready next unready
  ⟨_, stepWith_of_fetch_busRd fetched polls ready conv, (stillReading_of_exec unready polls).deviceRuns ready conv, rfl, rfl⟩

/-- As many polls as there are steps in which the device stays not ready. -/
theorem runWith_read_of_not_ready (fetched : s.fetch = .instruction r (.busRd next)) (unready : s.dev.ready = false)
    (convs : List Word) :
    ∃ t, runWith (convs.map fun c => (false, c)) s = .next t ∧ StillReading convs.length s t ∧ t.dev.ready = false := by
  induction convs generalizing s with
  | nil => exact ⟨s, rfl, .refl s, unready⟩
  | cons conv convs ih =>
    obtain ⟨u, step, poll, unready', -⟩ := stepWith_read_of_not_ready fetched unready false conv
    obtain ⟨t, run, polls, unready''⟩ := ih (poll.fetch_eq.trans fetched) unready'
    refine ⟨t, (runWith_cons step _).trans run, ?_, unready''⟩
    rw [List.length_cons, Nat.add_comm]
    exact poll.trans polls

end

/-! ## Runs of a read (R113, R114) -/

/-- Settles O20: every step is one more poll, and polls leave the read to be done. -/
theorem neverReadyReadHangs : Obligations.NeverReadyReadHangs := by
  unfold Obligations.NeverReadyReadHangs
  intro r next s convs fetched unready
  obtain ⟨t, run, reading, -⟩ := runWith_read_of_not_ready fetched unready convs
  exact ⟨t, run, reading.fetch_eq.trans fetched, reading.program, reading.frame.out, reading.frame.faults,
    by rw [reading.dev], by rw [reading.dev], reading.rxHigh, reading.rxLow,
    fun nonempty => reading.trace_eq (mt List.eq_nil_of_length_eq_zero nonempty)⟩

/-- Settles O21: the polls, one more in the step at whose end the device becomes ready, and the read of a ready device. -/
theorem readEndsOnceReady : Obligations.ReadEndsOnceReady := by
  unfold Obligations.ReadEndsOnceReady
  intro r next raw s convs d fetched unready
  obtain ⟨t, run, polls, unready'⟩ := runWith_read_of_not_ready fetched unready convs
  obtain ⟨u, step, poll, ready, conv⟩ := stepWith_read_of_not_ready (polls.fetch_eq.trans fetched) unready' true raw
  have reading := polls.trans poll
  obtain ⟨⟨v, read, frame, program, high, low, dev, freed, trace⟩, -⟩ := busRdReturnsTheSample next u ready
  have last := stepWith_of_fetch_busRd (reading.fetch_eq.trans fetched) read d.1 d.2
  obtain ⟨config, requests⟩ := reading.write_dev next
  rw [conv] at high low trace
  refine ⟨_, (runWith_append run _).trans ((runWith_cons step _).trans (runWith_cons last [])), ?_, ?_, ?_, ?_, high, low,
    freed, ?_⟩
  · rw [State.deviceRuns_program, program, reading.program]
  · rw [State.deviceRuns_out, frame.out, reading.frame.out]
  · rw [State.deviceRuns_dev, dev, ← config]; rfl
  · rw [State.deviceRuns_dev, dev, ← requests]; rfl
  · rw [State.deviceRuns_bus, trace, if_pos (reading.asserted (.inr (Nat.succ_ne_zero _))), List.append_nil,
      reading.trace_eq (Nat.succ_ne_zero _)]

end Sys2Proof.Machine
end

section
/-! The ADC path of the Value Converter (spec/42_value_converter_adc.md). What the commands do comes first, for every gain table
and format. Then what rounding does to magnitudes between two powers of two, to a quotient by 32768 and to dyadic numbers, which
gives the constants and the readings of selectors 0 to 4. Selector 5 turns on one comparison: its constant is so near to 39/5
that the rounded product lies within a unit in the last place of the exact one, and is the exact one where that is an integer. -/

namespace Sys2Proof.Machine

/-! ## The signed sample (R125, R126) -/

theorem sval_eq_toNat_sub (a : Word) : sval a = (a.toNat : Int) - 65536 * (if a.getLsbD 15 then 1 else 0) := by
  rw [sval, BitVec.toInt_eq_msb_cond, BitVec.msb_eq_getLsbD_last]
  cases a.getLsbD 15 <;> simp

theorem abs_sval_le (a : Word) : |sval a| ≤ 2 ^ 15 := by
  have lower := BitVec.le_toInt a
  have upper := BitVec.toInt_lt (x := a)
  exact abs_le.2 ⟨by simpa [sval] using lower, by simpa [sval] using upper.le⟩

theorem one_le_abs_sval {a : Word} (nz : a ≠ 0) : 1 ≤ |sval a| :=
  Int.one_le_abs fun zero => nz (BitVec.eq_of_toInt_eq zero)

theorem toInt_sext32 (a : Word) : (sext32 a).toInt = sval a := BitVec.toInt_signExtend_of_le (by decide)

/-- Settles O10: sign extension keeps the signed value. -/
theorem smpSextKeepsTheSignedValue : Obligations.SmpSextKeepsTheSignedValue := by
  unfold Obligations.SmpSextKeepsTheSignedValue
  intro a s
  refine ⟨⟨_, exec_smpSext_eq a s, answer_answered .., ?_⟩, rfl⟩
  exact (toInt_sext32 a).trans (sval_eq_toNat_sub a)

/-! ## What the two conversions answer, for every table and format (R127, R130, R133, R134) -/

section
variable {g : BitVec 3} {s : State}

theorem gainRow_of_lt (c : Config) (valid : g.toNat < 6) : gainRow c g = some c.ktab[g.toNat] :=
  Vector.getElem?_eq_getElem valid

theorem gainRow_of_le (c : Config) (invalid : 6 ≤ g.toNat) : gainRow c g = none :=
  Vector.getElem?_eq_none invalid

/-- Both conversions raise for a selector that has no row (R172). -/
theorem exec_adcScale_of_invalid (invalid : 6 ≤ g.toNat) (a : Word) :
    exec (.adcScale g a) s = .next (s.raise (.invalidPga g)) := by
  rw [exec_adcScale_eq, execAdcScale, gainRow_of_le s.cfg invalid]

theorem exec_adcMv_of_invalid (invalid : 6 ≤ g.toNat) (a : Word) :
    exec (.adcMv g a) s = .next (s.raise (.invalidPga g)) := by
  rw [exec_adcMv_eq, execAdcMv, gainRow_of_le s.cfg invalid]

end

@[simp] theorem reading_zero (f : FltFormat) (r : GainRow) : reading f r 0 = 0 := by simp [reading, sval]

/-- Settles O11: the selector has a row or not; the zero sample gives the zero product. -/
theorem adcScaleScalesTheSample : Obligations.AdcScaleScalesTheSample := by
  unfold Obligations.AdcScaleScalesTheSample
  intro g a s
  refine ⟨fun valid => ?valid, fun invalid => ⟨_, exec_adcScale_of_invalid invalid a, raise_faulted ..⟩, rfl⟩
  refine ⟨_, exec_adcScale_of_gainRow (gainRow_of_lt s.cfg valid) a, answer_answered .., ?_, fun zero => ?_⟩
  · rw [← sval_eq_toNat_sub]
    rfl
  · rw [zero]
    exact reading_zero ..

theorem toNat_trunc16 (z : Int) : ((trunc16 z).toNat : Int) = z % 65536 := by
  rw [trunc16, BitVec.toNat_ofInt]
  omega

/-- Settles O12: both commands use the row's reading. -/
theorem adcMvTakesTheCeiling : Obligations.AdcMvTakesTheCeiling := by
  unfold Obligations.AdcMvTakesTheCeiling
  intro g a s
  refine ⟨fun valid => ?_, fun invalid => ⟨_, exec_adcMv_of_invalid invalid a, raise_faulted ..⟩, rfl⟩
  have row := gainRow_of_lt s.cfg valid
  exact ⟨_, _, exec_adcMv_of_gainRow row a, exec_adcScale_of_gainRow row a, answer_answered .., toNat_trunc16 _⟩

/-- Settles O38: the integer reading is the ceiling of the reading. -/
theorem ceilingIsUpwardForBothSigns : Obligations.CeilingIsUpwardForBothSigns := by
  unfold Obligations.CeilingIsUpwardForBothSigns
  intro f r raw
  exact ⟨Int.le_ceil _, Int.ceil_lt_add_one _, by rw [millivolts, reading_zero, Int.ceil_zero]⟩

/-! ## Rounding between two powers of two (R9) -/

theorem fl_mono (f : FltFormat) : Monotone (fl f) := fun p q => (roundingIsIdentityMonotoneAndOdd f).2.1 p q

theorem abs_fl (f : FltFormat) (q : Rat) : |fl f q| = fl f |q| := by
  have nonneg : 0 ≤ fl f |q| := fl_zero f ▸ fl_mono f (abs_nonneg q)
  rcases abs_choice q with same | neg
  · rw [same] at nonneg ⊢
    exact abs_of_nonneg nonneg
  · rw [neg] at nonneg ⊢
    rw [← abs_neg, ← fl_neg, abs_of_nonneg nonneg]

theorem two_zpow_maxExponent_le_largest (f : IeeeFormat) : (2 : Rat) ^ maxExponent f ≤ largest f := by
  cases f <;> decide +kernel

theorem representable_two_zpow {f : IeeeFormat} {e : Int} (low : minExponent f ≤ e) (high : e ≤ maxExponent f) :
    Representable (.ieee f) (2 ^ e) := by
  have := precision_pos f
  refine ⟨⟨1, e, by simpa using one_le_pow₀ one_le_two, by omega, by simp⟩, ?_⟩
  rw [abs_of_pos (by positivity)]
  exact (zpow_le_zpow_right₀ one_le_two high).trans (two_zpow_maxExponent_le_largest f)

/-- The magnitude of `q` lies from `2 ^ lo` to `2 ^ hi`. -/
def MagnitudeBetween (lo hi : Int) (q : Rat) : Prop := (2 : Rat) ^ lo ≤ |q| ∧ |q| ≤ 2 ^ hi

namespace MagnitudeBetween

variable {lo hi lo' hi' : Int} {q : Rat}

theorem mono (h : MagnitudeBetween lo hi q) (low : lo' ≤ lo) (high : hi ≤ hi') : MagnitudeBetween lo' hi' q :=
  ⟨(zpow_le_zpow_right₀ one_le_two low).trans h.1, h.2.trans (zpow_le_zpow_right₀ one_le_two high)⟩

/-- Rounding is monotone and leaves the two powers of two alone. -/
theorem fl {f : IeeeFormat} (h : MagnitudeBetween lo hi q) (low : minExponent f ≤ lo) (high : hi ≤ maxExponent f) :
    MagnitudeBetween lo hi (fl (.ieee f) q) := by
  have ordered : lo ≤ hi := (zpow_le_zpow_iff_right₀ one_lt_two).1 (h.1.trans h.2)
  have least := fl_of_representable (representable_two_zpow low (ordered.trans high))
  have most := fl_of_representable (representable_two_zpow (low.trans ordered) high)
  rw [MagnitudeBetween, abs_fl]
  exact ⟨least ▸ fl_mono _ h.1, most ▸ fl_mono _ h.2⟩

theorem div_32768 (h : MagnitudeBetween lo hi q) : MagnitudeBetween (lo - 15) (hi - 15) (q / 32768) := by
  have scale (e : Int) : (2 : Rat) ^ (e - 15) = 2 ^ e / 32768 := by rw [zpow_sub₀ two_ne_zero]; norm_num
  rw [MagnitudeBetween, scale, scale, abs_div, abs_of_pos (by norm_num : (0 : Rat) < 32768)]
  exact ⟨by gcongr; exact h.1, by gcongr; exact h.2⟩

/-- A sample other than 0 has a magnitude from 1 to 2^15. -/
theorem sval_mul {raw : Word} (h : MagnitudeBetween lo hi q) (nz : raw ≠ 0) :
    MagnitudeBetween lo (hi + 15) (sval raw * q) := by
  have least : (1 : Rat) ≤ |(sval raw : Rat)| := mod_cast one_le_abs_sval nz
  have most : |(sval raw : Rat)| ≤ 2 ^ 15 := mod_cast abs_sval_le raw
  rw [MagnitudeBetween, abs_mul]
  constructor
  · exact h.1.trans (le_mul_of_one_le_left (abs_nonneg q) least)
  · calc |(sval raw : Rat)| * |q| ≤ 2 ^ 15 * 2 ^ hi := by gcongr; exact h.2
      _ = 2 ^ (hi + 15) := by rw [zpow_add₀ two_ne_zero, mul_comm]; rfl

end MagnitudeBetween

/-! ## The range of the constants and of the readings (R129, R130) -/

theorem multiplier_zero {f : FltFormat} {r : GainRow} (zero : literalValue r.literal = 0) : multiplier f r = 0 := by
  obtain ⟨kind, l⟩ := r
  cases kind <;> simp [multiplier, show literalValue l = 0 from zero]

theorem multiplier_magnitudeBetween {f : IeeeFormat} {r : GainRow}
    (h : MagnitudeBetween (minExponent f + 15) (maxExponent f - 15) (literalValue r.literal)) :
    MagnitudeBetween (minExponent f) (maxExponent f - 15) (multiplier (.ieee f) r) := by
  have rounded := h.fl (f := f) (by omega) (by omega)
  obtain ⟨kind, l⟩ := r
  cases kind with
  | fs => exact (rounded.div_32768.fl (by omega) (by omega)).mono (by omega) (by omega)
  | ratio => exact rounded.mono (by omega) le_rfl

/-- Settles O32: the literal's bounds leave room for the quotient by 2^15 below and for the sample above. -/
theorem readingsStayInsideTheFormat : Obligations.ReadingsStayInsideTheFormat := by
  unfold Obligations.ReadingsStayInsideTheFormat
  intro f r raw
  rintro (zero | between)
  · left
    rw [reading, multiplier_zero zero, mul_zero, fl_zero]
  · rcases eq_or_ne raw 0 with rfl | nz
    · exact .inl (reading_zero ..)
    · have product := (multiplier_magnitudeBetween between).sval_mul nz
      rw [sub_add_cancel] at product
      exact .inr (product.fl le_rfl le_rfl)

/-! ## Exact constants (R129) -/

/-- The quotient by 32768 has the significand of the rounded literal, and its unit is not too small. -/
theorem representable_fl_div_32768 {f : IeeeFormat} {q : Rat} (low : (2 : Rat) ^ (minExponent f + 15) ≤ |q|)
    (inside : |q| < overflowBound f) : Representable (.ieee f) (fl (.ieee f) q / 32768) := by
  have pos : 0 < |q| := (by positivity : (0 : Rat) < _).trans_le low
  have log_ge : minExponent f + 15 ≤ Int.log 2 |q| := (Int.zpow_le_iff_le_log one_lt_two pos).1 (mod_cast low)
  refine ⟨⟨_, ulpExponent f q - 15, abs_significand_le f q, ?_, ?_⟩, ?_⟩
  · unfold ulpExponent
    omega
  · rw [fl_inRange inside, roundNearest, zpow_sub₀ two_ne_zero, mul_div_assoc]
    norm_num
  · rw [abs_div, abs_of_pos (by norm_num : (0 : Rat) < 32768)]
    exact (div_le_self (abs_nonneg _) (by norm_num)).trans (representable_fl inside).2

theorem multiplier_fs_eq_div {f : IeeeFormat} {l : Literal}
    (h : literalValue l = 0 ∨ ((2 : Rat) ^ (minExponent f + 15) ≤ |literalValue l| ∧ |literalValue l| < overflowBound f)) :
    multiplier (.ieee f) ⟨.fs, l⟩ = fl (.ieee f) (literalValue l) / 32768 := by
  rcases h with zero | ⟨low, inside⟩
  · rw [multiplier_zero zero, zero, fl_zero, zero_div]
  · exact fl_of_representable (representable_fl_div_32768 low inside)

/-! ## Dyadic numbers -/

theorem minExponent_ulp_le (f : IeeeFormat) : minExponent f - (precision f - 1) ≤ -100 := by cases f <;> decide

theorem two_pow_24_le_two_pow_precision (f : IeeeFormat) : (2 : Int) ^ 24 ≤ 2 ^ precision f := by cases f <;> decide

theorem two_zpow_124_le_largest (f : IeeeFormat) : (2 : Rat) ^ (124 : Int) ≤ largest f := by cases f <;> decide +kernel

/-- A significand of 24 bits and a moderate exponent fit both formats. -/
theorem representable_mul_zpow (f : IeeeFormat) {m e : Int} (hm : |m| ≤ 2 ^ 24) (he : |e| ≤ 100) :
    Representable (.ieee f) (m * 2 ^ e) := by
  obtain ⟨low, high⟩ := abs_le.1 he
  refine ⟨⟨m, e, hm.trans (two_pow_24_le_two_pow_precision f), (minExponent_ulp_le f).trans low, rfl⟩, ?_⟩
  have hm' : |(m : Rat)| ≤ 2 ^ (24 : Int) := mod_cast hm
  calc |(m : Rat) * 2 ^ e| = |(m : Rat)| * 2 ^ e := by rw [abs_mul, abs_of_pos (by positivity : (0 : Rat) < 2 ^ e)]
    _ ≤ 2 ^ (24 : Int) * 2 ^ (100 : Int) :=
      mul_le_mul hm' (zpow_le_zpow_right₀ one_le_two high) (by positivity) (by positivity)
    _ = 2 ^ (124 : Int) := by rw [← zpow_add₀ two_ne_zero]; rfl
    _ ≤ largest f := two_zpow_124_le_largest f

/-- A number that, times a raw sample or divided by 32768, still fits both formats. -/
def ShortDyadic (q : Rat) : Prop := ∃ m e : Int, |m| ≤ 2 ^ 9 ∧ |e| ≤ 50 ∧ q = m * 2 ^ e

theorem ShortDyadic.representable {q : Rat} (h : ShortDyadic q) (f : IeeeFormat) : Representable (.ieee f) q := by
  obtain ⟨m, e, hm, he, rfl⟩ := h
  exact representable_mul_zpow f (hm.trans (by norm_num)) (he.trans (by norm_num))

theorem ShortDyadic.representable_sval_mul {q : Rat} (h : ShortDyadic q) (f : IeeeFormat) (raw : Word) :
    Representable (.ieee f) (sval raw * q) := by
  obtain ⟨m, e, hm, he, rfl⟩ := h
  have product : |sval raw * m| ≤ 2 ^ 24 := by
    rw [abs_mul]
    exact (mul_le_mul (abs_sval_le raw) hm (abs_nonneg m) (by norm_num)).trans (by norm_num)
  have fits := representable_mul_zpow f product (he.trans (by norm_num))
  rwa [Int.cast_mul, mul_assoc] at fits

/-- A row whose literal and constant are dyadic. -/
structure DyadicRow (r : GainRow) : Prop where
  literal : ShortDyadic (literalValue r.literal)
  constant : ShortDyadic (exactMultiplier r)

namespace DyadicRow

variable {r : GainRow}

theorem multiplier_eq (row : DyadicRow r) (f : IeeeFormat) : multiplier (.ieee f) r = exactMultiplier r := by
  have rounded := fl_of_representable (row.literal.representable f)
  have quotient := fl_of_representable (row.constant.representable f)
  obtain ⟨kind, l⟩ := r
  cases kind with
  | fs => exact (congrArg (fun v => fl (.ieee f) (v / 32768)) rounded).trans quotient
  | ratio => exact rounded

theorem reading_eq (row : DyadicRow r) (f : IeeeFormat) (raw : Word) :
    reading (.ieee f) r raw = sval raw * exactMultiplier r := by
  rw [reading, row.multiplier_eq]
  exact fl_of_representable (row.constant.representable_sval_mul f raw)

end DyadicRow

/-! ## Selectors 0 to 4 of the default table (R131) -/

theorem dyadicRow_defaultKtab {i : Nat} (h : i ≤ 4) : DyadicRow defaultKtab[i] := by
  interval_cases i
  · exact (⟨⟨3, 11, by decide +kernel⟩, 3, -4, by decide +kernel⟩ : DyadicRow ⟨.fs, 6144, 0⟩)
  · exact (⟨⟨1, -3, by decide +kernel⟩, 1, -3, by decide +kernel⟩ : DyadicRow ⟨.ratio, 125, 3⟩)
  · exact (⟨⟨1, 11, by decide +kernel⟩, 1, -4, by decide +kernel⟩ : DyadicRow ⟨.fs, 2048, 0⟩)
  · exact (⟨⟨1, 10, by decide +kernel⟩, 1, -5, by decide +kernel⟩ : DyadicRow ⟨.fs, 1024, 0⟩)
  · exact (⟨⟨1, 9, by decide +kernel⟩, 1, -6, by decide +kernel⟩ : DyadicRow ⟨.fs, 512, 0⟩)

theorem multiplier_defaultKtab (f : IeeeFormat) {i : Nat} (h : i ≤ 4) :
    multiplier (.ieee f) defaultKtab[i] = exactMultiplier defaultKtab[i] := (dyadicRow_defaultKtab h).multiplier_eq f

theorem reading_defaultKtab (f : IeeeFormat) {i : Nat} (h : i ≤ 4) (raw : Word) :
    reading (.ieee f) defaultKtab[i] raw = sval raw * exactMultiplier defaultKtab[i] :=
  (dyadicRow_defaultKtab h).reading_eq f raw

theorem exactMultiplier_defaultKtab :
    exactMultiplier defaultKtab[0] = 3 / 16 ∧ exactMultiplier defaultKtab[1] = 1 / 8 ∧
    exactMultiplier defaultKtab[2] = 1 / 16 ∧ exactMultiplier defaultKtab[3] = 1 / 32 ∧
    exactMultiplier defaultKtab[4] = 1 / 64 ∧ exactMultiplier defaultKtab[5] = 39 / 5 := by decide +kernel

/-- Settles O31: the formation by definition, the quotient by its significand, the default constants by being dyadic, and the bits
of selector 5's constant by evaluation. -/
theorem gainConstantsAreFormedAsStated : Obligations.GainConstantsAreFormedAsStated := by
  unfold Obligations.GainConstantsAreFormedAsStated
  refine ⟨fun f l => ⟨rfl, rfl⟩, fun f l h => multiplier_fs_eq_div h, fun f => ?_, by decide +kernel, by decide +kernel⟩
  obtain ⟨k0, k1, k2, k3, k4, -⟩ := exactMultiplier_defaultKtab
  exact ⟨(multiplier_defaultKtab f (by decide)).trans k0, (multiplier_defaultKtab f (by decide)).trans k1,
    (multiplier_defaultKtab f (by decide)).trans k2, (multiplier_defaultKtab f (by decide)).trans k3,
    (multiplier_defaultKtab f (by decide)).trans k4⟩

theorem exactMultiplier_defaultKtab_of_le {g : BitVec 3} (h : g.toNat ≤ 4) :
    exactMultiplier defaultKtab[g.toNat] =
      if g = 0 then 3 / 16 else if g = 1 then 1 / 8 else if g = 2 then 1 / 16 else if g = 3 then 1 / 32 else 1 / 64 := by
  revert g
  decide +kernel

/-- Settles O33: the reading of a dyadic constant is the exact product. -/
theorem defaultReadingsAreExact : Obligations.DefaultReadingsAreExact := by
  unfold Obligations.DefaultReadingsAreExact
  intro g a s f flt table h
  refine ⟨_, exec_adcScale_of_gainRow (gainRow_of_lt s.cfg (by omega)) a, rfl, ?_⟩
  simp only [State.answer_out, flt, table]
  rw [reading_defaultKtab f h, exactMultiplier_defaultKtab_of_le h, sval]

/-! ## Selector 5: the constant is rounded, the ceiling is not moved (R132, R133) -/

/-- A number so near to `q`, relative to `q`, that it is less than half a unit in the last place away. -/
theorem abs_sub_lt_half_ulp {f : IeeeFormat} {q x : Rat} (near : |q - x| * 2 ^ (precision f + 1) ≤ |q|) :
    |q - x| < 2 ^ ulpExponent f q / 2 := by
  have below := near.trans_lt (abs_lt_two_zpow f q)
  rw [zpow_add₀ two_ne_zero, zpow_natCast, pow_succ] at below
  have pos : (0 : Rat) < 2 ^ precision f := by positivity
  nlinarith

/-- A multiple of the unit in the last place that is less than half a unit away is what `q` rounds to. -/
theorem roundNearest_eq_of_lt_half_ulp {f : IeeeFormat} {q : Rat} {n : Int}
    (near : |q - n * 2 ^ ulpExponent f q| < 2 ^ ulpExponent f q / 2) : roundNearest f q = n * 2 ^ ulpExponent f q := by
  have pos : (0 : Rat) < 2 ^ ulpExponent f q := by positivity
  have units : |q / 2 ^ ulpExponent f q - n| < 1 / 2 := by
    rw [abs_sub_mul_ulp] at near
    nlinarith
  rw [roundNearest, ← eq_roundEven units.le fun tie => absurd tie units.ne]

theorem abs_sub_roundNearest_le_half_ulp (f : IeeeFormat) (q : Rat) :
    |q - roundNearest f q| ≤ 2 ^ ulpExponent f q / 2 := by
  rw [roundNearest, abs_sub_mul_ulp]
  have := mul_le_mul_of_nonneg_right (abs_sub_roundEven_le (q / 2 ^ ulpExponent f q))
    (by positivity : (0 : Rat) ≤ 2 ^ ulpExponent f q)
  linarith

/-- Below 2^18 the unit in the last place is at most 2^-6 in both formats. -/
theorem ulpExponent_le_of_abs_lt (f : IeeeFormat) {q : Rat} (small : |q| < 2 ^ 18) : ulpExponent f q ≤ -6 := by
  have log_le : Int.log 2 |q| ≤ 17 := by
    rcases eq_or_ne q 0 with rfl | nz
    · simp
    · have := (Int.lt_zpow_iff_log_lt (b := 2) (x := 18) one_lt_two (abs_pos.2 nz)).1 (mod_cast small)
      omega
  cases f <;> simp only [ulpExponent, precision, minExponent] <;> omega

theorem two_pow_18_lt_overflowBound (f : IeeeFormat) : 2 ^ 18 < overflowBound f := by cases f <;> decide +kernel

/-- `k / 5`, when it is no integer, is at least a fifth away from one. -/
theorem ceil_eq_of_abs_sub_lt {v : Rat} {k : Int} (near : |v - k / 5| < 1 / 5) (frac : ¬ (5 : Int) ∣ k) :
    ⌈v⌉ = ⌈(k / 5 : Rat)⌉ := by
  obtain ⟨lower, upper⟩ := abs_lt.1 near
  have expand : (k : Rat) = 5 * (k / 5 : Int) + (k % 5 : Int) := mod_cast (Int.mul_ediv_add_emod k 5).symm
  have rest_pos : (1 : Rat) ≤ (k % 5 : Int) := mod_cast (show 1 ≤ k % 5 by omega)
  have rest_lt : ((k % 5 : Int) : Rat) ≤ 4 := mod_cast (show k % 5 ≤ 4 by omega)
  have exact_ceil : ⌈(k / 5 : Rat)⌉ = k / 5 + 1 := by
    rw [Int.ceil_eq_iff]
    push_cast
    constructor <;> linarith
  rw [exact_ceil, Int.ceil_eq_iff]
  push_cast
  constructor <;> linarith

section
variable {f : IeeeFormat} {q : Rat} {k : Int}

theorem fl_of_near_integer (near : |q - k| * 2 ^ (precision f + 1) ≤ |q|) (small : |q| < 2 ^ 18) : fl (.ieee f) q = k := by
  have inRange : |q| < overflowBound f := small.trans (two_pow_18_lt_overflowBound f)
  have fine : ulpExponent f q ≤ 0 := (ulpExponent_le_of_abs_lt f small).trans (by decide)
  obtain ⟨n, multiple⟩ := mul_zpow_eq_multiple_of_le k fine
  rw [zpow_zero, mul_one] at multiple
  have half := abs_sub_lt_half_ulp near
  rw [multiple] at half
  rw [fl_inRange inRange, roundNearest_eq_of_lt_half_ulp half, multiple]

/-- The key fact: rounding a number near to `k / 5` does not move it across an integer. -/
theorem ceil_fl_of_near_fifth (near : |q - k / 5| * 2 ^ (precision f + 1) ≤ |q|) (small : |q| < 2 ^ 18) :
    ⌈fl (.ieee f) q⌉ = ⌈(k / 5 : Rat)⌉ := by
  by_cases whole : (5 : Int) ∣ k
  · obtain ⟨n, rfl⟩ := whole
    have fifth : ((5 * n : Int) : Rat) / 5 = n := by push_cast; ring
    rw [fifth] at near ⊢
    rw [fl_of_near_integer near small]
  · have inRange : |q| < overflowBound f := small.trans (two_pow_18_lt_overflowBound f)
    have ulp_le : (2 : Rat) ^ ulpExponent f q ≤ 1 / 64 :=
      (zpow_le_zpow_right₀ one_le_two (ulpExponent_le_of_abs_lt f small)).trans (by norm_num)
    have half := abs_sub_lt_half_ulp near
    have rounded := abs_sub_roundNearest_le_half_ulp f q
    refine ceil_eq_of_abs_sub_lt ?_ whole
    rw [fl_inRange inRange]
    have tri := abs_sub_le (roundNearest f q) q (k / 5)
    rw [abs_sub_comm (roundNearest f q) q] at tri
    linarith

end

/-- The constant of selector 5 in a format. -/
def selectorFiveConstant : IeeeFormat → Rat
  | .binary32 => 0xF9999A / 2 ^ 21
  | .binary64 => 0x1F333333333333 / 2 ^ 50

theorem multiplier_selectorFive (f : IeeeFormat) : multiplier (.ieee f) defaultKtab[5] = selectorFiveConstant f := by
  cases f <;> decide +kernel

theorem selectorFiveConstant_near (f : IeeeFormat) :
    |selectorFiveConstant f - 39 / 5| * 2 ^ (precision f + 1) ≤ |selectorFiveConstant f| := by
  cases f <;> decide +kernel

theorem abs_selectorFiveConstant_lt (f : IeeeFormat) : |selectorFiveConstant f| < 8 := by cases f <;> decide +kernel

theorem product_selectorFive_near (f : IeeeFormat) (n : Int) :
    |n * selectorFiveConstant f - (39 * n : Int) / 5| * 2 ^ (precision f + 1) ≤ |n * selectorFiveConstant f| := by
  have factor : (n : Rat) * selectorFiveConstant f - (39 * n : Int) / 5 = n * (selectorFiveConstant f - 39 / 5) := by
    push_cast; ring
  rw [factor, abs_mul, abs_mul, mul_assoc]
  exact mul_le_mul_of_nonneg_left (selectorFiveConstant_near f) (abs_nonneg _)

theorem abs_product_selectorFive_lt (f : IeeeFormat) (raw : Word) : |sval raw * selectorFiveConstant f| < 2 ^ 18 := by
  have sample : |(sval raw : Rat)| ≤ 2 ^ 15 := mod_cast abs_sval_le raw
  rw [abs_mul]
  calc |(sval raw : Rat)| * |selectorFiveConstant f| ≤ 2 ^ 15 * |selectorFiveConstant f| := by gcongr
    _ < 2 ^ 15 * 8 := by gcongr; exact abs_selectorFiveConstant_lt f
    _ = 2 ^ 18 := by norm_num

theorem reading_selectorFive_eq (f : IeeeFormat) (raw : Word) :
    reading (.ieee f) defaultKtab[5] raw = fl (.ieee f) (sval raw * selectorFiveConstant f) := by
  rw [reading, multiplier_selectorFive]

/-- Where the exact product is an integer, the reading is that integer. -/
theorem reading_selectorFive_of_five_dvd (f : IeeeFormat) {raw : Word} {n : Int} (h : sval raw = 5 * n) :
    reading (.ieee f) defaultKtab[5] raw = (39 * n : Int) := by
  have near := product_selectorFive_near f (sval raw)
  have whole : ((39 * sval raw : Int) : Rat) / 5 = (39 * n : Int) := by rw [h]; push_cast; ring
  rw [whole] at near
  rw [reading_selectorFive_eq, fl_of_near_integer near (abs_product_selectorFive_lt f raw)]

theorem millivolts_selectorFive (f : IeeeFormat) (raw : Word) :
    millivolts (.ieee f) defaultKtab[5] raw = ⌈((39 * sval raw : Int) : Rat) / 5⌉ := by
  rw [millivolts, reading_selectorFive_eq]
  exact ceil_fl_of_near_fifth (product_selectorFive_near f _) (abs_product_selectorFive_lt f raw)

/-- R133: the integer reading is the ceiling of the exact product. -/
theorem millivolts_defaultKtab (f : IeeeFormat) {i : Nat} (h : i < 6) (raw : Word) :
    millivolts (.ieee f) defaultKtab[i] raw = ⌈sval raw * exactMultiplier defaultKtab[i]⌉ := by
  rcases Nat.lt_succ_iff_lt_or_eq.1 h with dyadic | rfl
  · rw [millivolts, reading_defaultKtab f (by omega)]
  · obtain ⟨-, -, -, -, -, k5⟩ := exactMultiplier_defaultKtab
    rw [millivolts_selectorFive, k5]
    congr 1
    push_cast
    ring

/-- Settles O34: the two exact products are integers, the other readings are evaluated. -/
theorem selectorFiveReadsAsListed : Obligations.SelectorFiveReadsAsListed := by
  unfold Obligations.SelectorFiveReadsAsListed
  have five (f : IeeeFormat) := reading_selectorFive_of_five_dvd f (raw := 5) (n := 1) (by decide)
  have hundred (f : IeeeFormat) := reading_selectorFive_of_five_dvd f (raw := 100) (n := 20) (by decide)
  refine ⟨?raw1, ⟨five _, five _⟩, ⟨hundred _, hundred _⟩, ?raw1234, ?largest, ?least⟩ <;>
    simp only [reading_selectorFive_eq] <;> decide +kernel

/-- What ADC.MV does with the default table (R133, R134). -/
theorem exec_adcMv_defaultKtab {g : BitVec 3} {s : State} {f : IeeeFormat} (flt : s.cfg.flt = .ieee f)
    (table : s.cfg.ktab = defaultKtab) (h : g.toNat < 6) (a : Word) :
    ∃ t, exec (.adcMv g a) s = .next t ∧
      Answered s t (overflowStatus ⌈(a.toInt : Rat) * exactMultiplier defaultKtab[g.toNat]⌉) ∧
      t.out.y = trunc16 ⌈(a.toInt : Rat) * exactMultiplier defaultKtab[g.toNat]⌉ := by
  have answer := exec_adcMv_of_gainRow (gainRow_of_lt s.cfg h) a
  simp only [flt, table, millivolts_defaultKtab f h] at answer
  exact ⟨_, answer, answer_answered .., rfl⟩

/-- Settles O35: exact readings for selectors 0 to 4, an unmoved ceiling for selector 5. -/
theorem integerReadingIsTheExactCeiling : Obligations.IntegerReadingIsTheExactCeiling := by
  unfold Obligations.IntegerReadingIsTheExactCeiling
  exact fun g a s f flt table h => exec_adcMv_defaultKtab flt table h a

/-! ## Overflow and extremes (R134, R135) -/

theorem overflows16_iff (z : Int) : overflows16 z = true ↔ z < -32768 ∨ 32767 < z := decide_eq_true_iff

theorem overflows16_ceil_iff (q : Rat) : overflows16 ⌈q⌉ = true ↔ q ≤ -32769 ∨ 32767 < q := by
  rw [overflows16_iff, Int.lt_ceil, show ⌈q⌉ < -32768 ↔ ⌈q⌉ ≤ -32769 by omega, Int.ceil_le]
  norm_num

/-- A constant of at most 1 keeps the integer reading in 16 bits. -/
theorem not_overflows16_of_le_one {k : Rat} (nonneg : 0 ≤ k) (le_one : k ≤ 1) (a : Word) :
    overflows16 ⌈(sval a : Rat) * k⌉ = false := by
  have lower : (-32768 : Rat) ≤ sval a := mod_cast BitVec.le_toInt a
  have upper : (sval a : Rat) ≤ 32767 := mod_cast Int.le_of_lt_add_one (BitVec.toInt_lt (x := a))
  rw [← Bool.not_eq_true, overflows16_ceil_iff, not_or, not_le, not_lt]
  constructor <;> nlinarith

theorem exactMultiplier_defaultKtab_mem {g : BitVec 3} (h : g.toNat ≤ 4) :
    0 ≤ exactMultiplier defaultKtab[g.toNat] ∧ exactMultiplier defaultKtab[g.toNat] ≤ 1 := by
  rw [exactMultiplier_defaultKtab_of_le h]
  split_ifs <;> norm_num

/-- 4201 * 39 / 5 is above 32767, and -4202 * 39 / 5 the first multiple at or below -32769. -/
theorem overflows16_selectorFive_iff (n : Int) :
    overflows16 ⌈(n : Rat) * (39 / 5)⌉ = true ↔ 4201 ≤ n ∨ n ≤ -4202 := by
  have above : 32767 < (n : Rat) * (39 / 5) ↔ (163835 : Rat) < (n * 39 : Int) := by
    push_cast; constructor <;> intro h <;> linarith
  have below : (n : Rat) * (39 / 5) ≤ -32769 ↔ ((n * 39 : Int) : Rat) ≤ -163845 := by
    push_cast; constructor <;> intro h <;> linarith
  rw [overflows16_ceil_iff, above, below]
  norm_cast
  omega

/-- Settles O36: selectors 0 to 4 have a constant of at most 1, selector 5 overflows from two samples on. -/
theorem integerReadingOverflowsOnlyForSelectorFive : Obligations.IntegerReadingOverflowsOnlyForSelectorFive := by
  unfold Obligations.IntegerReadingOverflowsOnlyForSelectorFive
  intro g a s f flt table h
  obtain ⟨t, run, answered, -⟩ := exec_adcMv_defaultKtab flt table h a
  refine ⟨t, run, ?_⟩
  have flag : t.st.st_ovf = overflows16 ⌈(a.toInt : Rat) * exactMultiplier defaultKtab[g.toNat]⌉ := by
    rw [answered.status, overflowStatus]
  rw [flag]
  rcases Nat.lt_succ_iff_lt_or_eq.1 h with small | five
  · obtain ⟨nonneg, le_one⟩ := exactMultiplier_defaultKtab_mem (Nat.lt_succ_iff.1 small)
    have other : g ≠ 5 := fun five => absurd small (five ▸ by decide)
    have fits := not_overflows16_of_le_one nonneg le_one a
    rw [sval] at fits
    exact iff_of_false (by rw [fits]; decide) fun five => other five.1
  · obtain rfl : g = 5 := BitVec.eq_of_toNat_eq five
    obtain ⟨-, -, -, -, -, k5⟩ := exactMultiplier_defaultKtab
    rw [show exactMultiplier defaultKtab[(5 : BitVec 3).toNat] = 39 / 5 from k5, overflows16_selectorFive_iff]
    simp

/-- Settles O37: the exact products and their ceilings, evaluated. -/
theorem extremeReadingsAreAsListed : Obligations.ExtremeReadingsAreAsListed := by
  unfold Obligations.ExtremeReadingsAreAsListed
  refine ⟨fun f => ?float, fun f => ?integer⟩
  case float =>
    simp only [reading_defaultKtab f (i := 0) (by decide), reading_defaultKtab f (i := 1) (by decide),
      reading_defaultKtab f (i := 2) (by decide), reading_defaultKtab f (i := 3) (by decide),
      reading_defaultKtab f (i := 4) (by decide)]
    decide +kernel
  case integer =>
    simp only [millivolts_defaultKtab f (i := 0) (by decide), millivolts_defaultKtab f (i := 1) (by decide),
      millivolts_defaultKtab f (i := 2) (by decide), millivolts_defaultKtab f (i := 3) (by decide),
      millivolts_defaultKtab f (i := 4) (by decide), millivolts_defaultKtab f (i := 5) (by decide)]
    decide +kernel

end Sys2Proof.Machine
end

section
/-! The temperature path of the Value Converter (spec/43_value_converter_temp.md). Every mode reads the word through its upper 14
bits, `a.toNat / 4`, and only adds its own constant where bit 15 is set; `temperatureCode_eq_add_offset` says so once. The
padding, the offsets between the modes and the range follow from it, and exactness (R151) from the range. -/

namespace Sys2Proof.Machine

theorem exec_tmpDec (a : Word) (s : State) :
    ∃ t, exec (.tmpDec a) s = .next t ∧ Answered s t Status.clear ∧
      t.out.yf = temperature s.cfg.flt s.cfg.tempNegMode a :=
  ⟨_, exec_tmpDec_eq .., answer_answered .., rfl⟩

/-! ## The code of each path (R146 to R149) -/

theorem getLsbD_fifteen_iff (a : Word) : a.getLsbD 15 = true ↔ 2 ^ 15 ≤ a.toNat := by
  rw [show a.getLsbD 15 = a.msb from (BitVec.msb_eq_getLsbD_last a).symm, BitVec.msb_eq_decide, decide_eq_true_iff]

theorem codePositive_eq_div (a : Word) : codePositive a = a.toNat / 4 := by
  rw [codePositive, BitVec.toNat_ushiftRight, Nat.shiftRight_eq_div_pow]
  rfl

theorem codeBit16_eq_div (a : Word) : codeBit16 a = a.toNat / 4 := codePositive_eq_div a

theorem toNat_bitField_upper (a : Word) : (bitField a 2 14).toNat = a.toNat / 4 := by
  rw [bitField, BitVec.extractLsb'_toNat, Nat.shiftRight_eq_div_pow]
  omega

/-- The 14-bit number is negative, as its top bit is the word's. -/
theorem codeArith_eq_div_sub {a : Word} (negative : a.getLsbD 15 = true) : codeArith a = a.toNat / 4 - 2 ^ 14 := by
  have high := (getLsbD_fifteen_iff a).1 negative
  rw [codeArith, BitVec.toInt_eq_toNat_cond, toNat_bitField_upper, if_neg (by omega)]
  rfl

/-- The restored sign bit stands above the shifted 13 bits. -/
theorem toNat_signRestored (a : Word) :
    (((a &&& 0x7FFF) >>> 2) ||| 0x8000).toNat = 2 ^ 15 + a.toNat % 2 ^ 15 / 4 := by
  have shifted : ((a &&& 0x7FFF) >>> 2).toNat = a.toNat % 2 ^ 15 / 4 := by
    rw [BitVec.toNat_ushiftRight, BitVec.toNat_and, Nat.shiftRight_eq_div_pow]
    exact congrArg (· / 4) (Nat.and_two_pow_sub_one_eq_mod a.toNat 15)
  have disjoint := Nat.two_pow_add_eq_or_of_lt (i := 15) (b := a.toNat % 2 ^ 15 / 4) (by omega) 1
  rw [BitVec.toNat_or, shifted, Nat.or_comm]
  exact disjoint.symm

theorem codeScr15_eq_div_sub {a : Word} (negative : a.getLsbD 15 = true) : codeScr15 a = a.toNat / 4 - 40960 := by
  have high := (getLsbD_fifteen_iff a).1 negative
  rw [codeScr15, sval, BitVec.toInt_eq_toNat_cond, toNat_signRestored, if_neg (by omega)]
  omega

/-- What a mode adds to the upper 14 bits of a word with bit 15 set (R147 to R149). -/
def negativeOffset : TempNegMode → Int
  | .scr15 => -40960
  | .arith => -16384
  | .bit16 => 0

theorem temperatureCode_eq_add_offset (m : TempNegMode) (a : Word) :
    temperatureCode m a = a.toNat / 4 + if a.getLsbD 15 then negativeOffset m else 0 := by
  unfold temperatureCode
  split_ifs with negative
  · cases m with
    | scr15 => exact codeScr15_eq_div_sub negative
    | arith => exact codeArith_eq_div_sub negative
    | bit16 => exact (codeBit16_eq_div a).trans (add_zero _).symm
  · exact (codePositive_eq_div a).trans (add_zero _).symm

theorem temperatureCode_of_negative (m : TempNegMode) {a : Word} (negative : a.getLsbD 15 = true) :
    temperatureCode m a = a.toNat / 4 + negativeOffset m := by
  rw [temperatureCode_eq_add_offset, if_pos negative]

theorem temperatureCode_of_positive (m : TempNegMode) {a : Word} (positive : a.getLsbD 15 = false) :
    temperatureCode m a = a.toNat / 4 := by
  rw [temperatureCode_eq_add_offset, positive, if_neg Bool.false_ne_true, add_zero]

/-- The quarter of the word with its sign bit cleared, less the weight of the restored one (R147). -/
theorem temperatureCode_scr15_of_negative {a : Word} (negative : a.getLsbD 15 = true) :
    temperatureCode .scr15 a = ((a.toNat - 32768) / 4 : Nat) - 32768 := by
  have high := (getLsbD_fifteen_iff a).1 negative
  rw [temperatureCode_of_negative _ negative, negativeOffset]
  omega

/-- The floor of the signed word's quarter (R148). -/
theorem temperatureCode_arith_of_negative {a : Word} (negative : a.getLsbD 15 = true) :
    temperatureCode .arith a = (a.toNat - 65536) / 4 := by
  rw [temperatureCode_of_negative _ negative, negativeOffset]
  omega

/-! ## The padding and the range (R151, R152) -/

/-- The mask keeps the upper 14 bits, and with them bit 15. -/
theorem temperatureCode_and_mask (m : TempNegMode) (a : Word) : temperatureCode m (a &&& 0xFFFC) = temperatureCode m a := by
  have field : bitField (a &&& 0xFFFC) 2 14 = bitField a 2 14 := BitVec.extractLsb'_and.trans BitVec.and_allOnes
  have upper : (a &&& 0xFFFC).toNat / 4 = a.toNat / 4 := by rw [← toNat_bitField_upper, field, toNat_bitField_upper]
  have sign : (a &&& 0xFFFC).getLsbD 15 = a.getLsbD 15 := (BitVec.getLsbD_and ..).trans (Bool.and_true _)
  rw [temperatureCode_eq_add_offset, temperatureCode_eq_add_offset, sign]
  exact congrArg (· + _) (congrArg Nat.cast upper)

theorem temperatureCode_mem_range (m : TempNegMode) (a : Word) :
    -32768 ≤ temperatureCode m a ∧ temperatureCode m a ≤ 16383 := by
  have word := a.isLt
  cases bit : a.getLsbD 15 with
  | false =>
    rw [temperatureCode_of_positive m bit]
    omega
  | true =>
    have high := (getLsbD_fifteen_iff a).1 bit
    rw [temperatureCode_of_negative m bit]
    cases m <;> rw [negativeOffset] <;> omega

theorem representable_code_div_32 (f : IeeeFormat) (m : TempNegMode) (a : Word) :
    Representable (.ieee f) (temperatureCode m a / 32) := by
  obtain ⟨least, most⟩ := temperatureCode_mem_range m a
  have fits := representable_mul_zpow f (m := temperatureCode m a) (e := -5) (abs_le.2 (by omega)) (by decide)
  rwa [zpow_neg, ← div_eq_mul_inv, show (2 : Rat) ^ (5 : Int) = 32 by norm_num] at fits

/-- R151: the reading is exact. -/
theorem temperature_ieee (f : IeeeFormat) (m : TempNegMode) (a : Word) :
    temperature (.ieee f) m a = temperatureCode m a / 32 := fl_of_representable (representable_code_div_32 f m a)

theorem temperature_and_mask (f : FltFormat) (m : TempNegMode) (a : Word) :
    temperature f m (a &&& 0xFFFC) = temperature f m a := by
  rw [temperature, temperature, temperatureCode_and_mask]

/-- Settles O14: the code by the sign bit and the mode, the reading by R151. -/
theorem tmpDecDecodesEveryWord : Obligations.TmpDecDecodesEveryWord := by
  unfold Obligations.TmpDecDecodesEveryWord
  intro a s
  obtain ⟨t, run, answered, yf⟩ := exec_tmpDec a s
  refine ⟨⟨t, run, answered, temperatureCode s.cfg.tempNegMode a / 32, congrArg (· / 32) ?code, yf, ?exact⟩, rfl⟩
  case exact =>
    intro f flt
    rw [yf, flt, temperature_ieee]
  case code =>
    split_ifs with bit
    · rw [temperatureCode_of_positive _ bit]
      norm_cast
    · have negative := eq_true_of_ne_false bit
      cases s.cfg.tempNegMode with
      | scr15 => rw [temperatureCode_scr15_of_negative negative, Int.cast_sub, Int.cast_natCast, Int.cast_ofNat]
      | arith => rw [temperatureCode_arith_of_negative negative]
      | bit16 =>
        rw [temperatureCode_of_negative _ negative, negativeOffset, add_zero]
        norm_cast

/-- Settles O39: the codes differ by the differences of the modes' offsets, the exact readings by a 32nd of these. -/
theorem temperatureModesDifferByFixedOffsets : Obligations.TemperatureModesDifferByFixedOffsets := by
  unfold Obligations.TemperatureModesDifferByFixedOffsets
  intro a s
  obtain ⟨t, run_t, -, yf_t⟩ := exec_tmpDec a { s with cfg := { s.cfg with tempNegMode := .scr15 } }
  obtain ⟨u, run_u, -, yf_u⟩ := exec_tmpDec a { s with cfg := { s.cfg with tempNegMode := .arith } }
  obtain ⟨v, run_v, -, yf_v⟩ := exec_tmpDec a { s with cfg := { s.cfg with tempNegMode := .bit16 } }
  refine ⟨t, u, v, run_t, run_u, run_v, fun negative => ?offsets, fun positive => ?agree⟩
  case offsets =>
    have scr15 : temperatureCode .scr15 a = temperatureCode .arith a - 24576 := by
      simp only [temperatureCode_of_negative _ negative, negativeOffset]
      ring
    have bit16 : temperatureCode .bit16 a = temperatureCode .arith a + 16384 := by
      simp only [temperatureCode_of_negative _ negative, negativeOffset]
      ring
    refine ⟨scr15, bit16, fun f flt => ?_⟩
    simp only [yf_t, yf_u, yf_v, flt, temperature_ieee, scr15, bit16]
    push_cast
    constructor <;> ring
  case agree =>
    simp only [yf_t, yf_u, yf_v, temperature, temperatureCode_of_positive _ positive, and_self]

/-- Settles O40: the padding does not reach the code, and the code's range makes the reading exact. -/
theorem temperatureIsBoundedAndIgnoresPadding : Obligations.TemperatureIsBoundedAndIgnoresPadding := by
  unfold Obligations.TemperatureIsBoundedAndIgnoresPadding
  intro a s
  obtain ⟨t, run_t, -, yf_t⟩ := exec_tmpDec a s
  obtain ⟨u, run_u, -, yf_u⟩ := exec_tmpDec (a &&& 0xFFFC) s
  refine ⟨t, u, run_t, run_u, by rw [yf_t, yf_u, temperature_and_mask], fun f flt => ?_⟩
  obtain ⟨least, most⟩ := temperatureCode_mem_range s.cfg.tempNegMode a
  have least' : (-32768 : Rat) ≤ temperatureCode s.cfg.tempNegMode a := mod_cast least
  have most' : (temperatureCode s.cfg.tempNegMode a : Rat) ≤ 16383 := mod_cast most
  rw [yf_t, flt, temperature_ieee]
  exact ⟨by linarith, by linarith, representable_code_div_32 f _ a⟩

end Sys2Proof.Machine
end

section
/-! The averaged reading (spec/44_averaging.md R160 to R164). A turn of its loop is taken item by item: the read and the join, the
conversion, the addition. A turn that adds its term leads to the next turn, so the whole reading is an induction over the
samples; a conversion that raises leads to the addition that gives the reading up. -/

namespace Sys2Proof.Machine

/-! ## The host's list of an averaged reading (R160) -/

theorem averageTurns_append (g : BitVec 3) (next : Word) (v : AvgVariant) (rest more : List HostItem) (n : Nat) :
    averageTurns g next v rest n ++ more = averageTurns g next v (rest ++ more) n := by
  induction n with
  | zero => rfl
  | succ n ih => rw [averageTurns, List.append_assoc, ih, averageTurns]

/-- No item of a turn ends the averaged reading. -/
theorem afterAverage_averageTurn_append (g : BitVec 3) (next : Word) (v : AvgVariant) (items : List HostItem) :
    afterAverage (averageTurn g next v ++ items) = afterAverage items := by
  cases v <;> rfl

/-- Giving up drops all the turns that are left, however many. -/
theorem afterAverage_averageTurns (g : BitVec 3) (next : Word) (v : AvgVariant) (n : Nat) (rest : List HostItem) (m : Nat) :
    afterAverage (averageTurns g next v (.avgMean n v :: rest) m) = rest := by
  induction m with
  | zero => rfl
  | succ m ih => rw [averageTurns, afterAverage_averageTurn_append, ih]

/-! ## The host's own arithmetic (R160, R162, R163) -/

section
variable {s : State} {v : AvgVariant} {rest : List HostItem}

theorem State.addSample_of_ok (ok : s.outcome = .ok) (v : AvgVariant) :
    s.addSample v = { s with avg := { s.avg with sum := s.avg.sum + sampleTerm v s.out }, program := s.program.tail } := by
  rw [State.addSample, ok]

theorem State.addSample_of_fault {f : CommandFault} (faulted : s.outcome = .fault f) (v : AvgVariant) :
    s.addSample v = { s with avg := { s.avg with result := .fault f }, program := afterAverage s.program.tail } := by
  rw [State.addSample, faulted]

theorem State.endAverage_of_pos (s : State) {n : Nat} (pos : 0 < n) (v : AvgVariant) :
    s.endAverage n v = { s with
      avg := { s.avg with result := .mean (meanValue v s.avg.sum n (Config.freeRoundsUp s.draws)) }
      draws := s.draws + 1
      program := s.program.tail } := if_neg pos.ne'

/-- An item that stands for no request is the host's own work. -/
theorem stepWith_of_work {item : HostItem} (hp : s.program = item :: rest) (own : item.request s = none) (ready : Bool)
    (conv : Word) : stepWith ready conv s = .next ((s.hostWork item).deviceRuns ready conv) := by
  rw [stepWith, State.fetch, hp]
  simp only [own]

theorem stepWith_avgAdd (hp : s.program = .avgAdd v :: rest) (ready : Bool) (conv : Word) :
    stepWith ready conv s = .next ((s.addSample v).deviceRuns ready conv) := stepWith_of_work hp rfl ready conv

theorem stepWith_avgMean {n : Nat} (hp : s.program = .avgMean n v :: rest) (ready : Bool) (conv : Word) :
    stepWith ready conv s = .next ((s.endAverage n v).deviceRuns ready conv) := stepWith_of_work hp rfl ready conv

end

/-- The state in which the turns of an averaged reading begin. -/
def State.averaging (s : State) (n : Nat) (g : BitVec 3) (next : Word) (v : AvgVariant) (rest : List HostItem) : State :=
  { s with avg := { sum := 0, result := .pending }, program := averageTurns g next v (.avgMean n v :: rest) n }

theorem stepWith_averageItems (n : Nat) (g : BitVec 3) (next : Word) (v : AvgVariant) (rest : List HostItem) (s : State)
    (ready : Bool) (conv : Word) :
    stepWith ready conv { s with program := averageItems n g next v ++ rest } =
      .next ((s.averaging n g next v rest).deviceRuns ready conv) := by
  rw [averageItems, List.cons_append, averageTurns_append]
  exact stepWith_of_work (item := .avgBegin) rfl rfl ready conv

/-- The free choice of a neighbour is between the floor and the ceiling (R161). -/
theorem meanValue_integer (sum : Rat) (n : Nat) (roundsUp : Bool) :
    meanValue .integer sum n roundsUp = ⌊sum / n⌋ ∨ meanValue .integer sum n roundsUp = ⌈sum / n⌉ := by
  cases roundsUp with
  | false => exact .inl rfl
  | true => exact .inr rfl

/-! ## The conversion of one sample (R160) -/

/-- The command that `convertItem` stands for. -/
def convertInstr (g : BitVec 3) (v : AvgVariant) (a : Word) : Instr :=
  match v with
  | .float => .adcScale g a
  | .integer => .adcMv g a

theorem convertItem_request (g : BitVec 3) (v : AvgVariant) (s : State) :
    (convertItem g v).request s = some (encode (convertInstr g v s.out.y)) := by
  cases v <;> rfl

theorem exec_convertInstr_of_gainRow {s : State} {g : BitVec 3} {r : GainRow} (row : gainRow s.cfg g = some r)
    (v : AvgVariant) (a : Word) :
    ∃ t st, exec (convertInstr g v a) s = .next t ∧ Answered s t st ∧
      sampleTerm v t.out = sampleReading s.cfg.flt r v a := by
  cases v with
  | float => exact ⟨_, _, exec_adcScale_of_gainRow row a, answer_answered .., rfl⟩
  | integer => exact ⟨_, _, exec_adcMv_of_gainRow row a, answer_answered .., rfl⟩

theorem exec_convertInstr_of_invalid {g : BitVec 3} (invalid : 6 ≤ g.toNat) (v : AvgVariant) (a : Word) (s : State) :
    exec (convertInstr g v a) s = .next (s.raise (.invalidPga g)) := by
  cases v with
  | float => exact exec_adcScale_of_invalid invalid a
  | integer => exact exec_adcMv_of_invalid invalid a

/-! ## One turn (R160) -/

/-- How many chip-select brackets the bus has seen (R112). -/
def Bus.brackets (b : Bus) : Nat := b.trace.count .selectDeassert

/-- A read of a ready device is one bracket, whether or not the line was asserted before. -/
theorem exec_busRd_brackets {next : Word} {s t : State} (ready : s.dev.ready = true) (h : exec (.busRd next) s = .next t) :
    t.bus.brackets = s.bus.brackets + 1 := by
  obtain ⟨⟨u, read, -, -, -, -, -, -, trace⟩, -⟩ := busRdReturnsTheSample next s ready
  obtain rfl := Host.Outcome.next.inj (h.symm.trans read)
  rw [Bus.brackets, trace]
  cases s.bus.selected <;> simp [Bus.brackets]

/-- What the read and the join of a turn make of `s`: the sample stands on `y`, one bracket more has been seen, `next` has been
written to the device; the parameters, the record of faults and the sum are left. -/
structure Sampled (next raw : Word) (s t : State) : Prop where
  cfg : t.cfg = s.cfg
  faults : t.faults = s.faults
  avg : t.avg = s.avg
  y : t.out.y = raw
  config : t.dev.config = (s.dev.write next).config
  brackets : t.bus.brackets = s.bus.brackets + 1

section
variable {s : State} {next raw : Word} {g : BitVec 3} {v : AvgVariant} {rest : List HostItem}

theorem runWith_read_join (hp : s.program = .issue (encode (.busRd next)) :: .joinReceived :: rest)
    (ready : s.dev.ready = true) (conv : s.dev.conv = raw) (d₂ d₃ : Bool × Word) :
    ∃ t, runWith [d₂, d₃] s = .next t ∧ t.program = rest ∧ Sampled next raw s t := by
  obtain ⟨⟨u, read, frame, program, high, low, dev, -, -⟩, -⟩ := busRdReturnsTheSample next s ready
  have first := stepWith_of_exec hp rfl read d₂.1 d₂.2
  rw [hp] at program
  obtain ⟨w, join, answered, y⟩ := exec_smpJoin u.bus.rxHigh u.bus.rxLow
    ((u.deviceRuns d₂.1 d₂.2).present (encode (.smpJoin u.bus.rxHigh u.bus.rxLow)))
  have second := stepWith_of_exec (s := u.deviceRuns d₂.1 d₂.2) program rfl join d₃.1 d₃.2
  refine ⟨_, (runWith_cons first _).trans (runWith_cons second []), ?_, ?_, ?_, ?_, ?_, ?_, ?_⟩
  · simp [answered.program, program]
  · simp [answered.frame.cfg, frame.cfg]
  · simp [answered.faults, frame.faults]
  · simp [answered.frame.avg, frame.avg]
  · rw [State.deviceRuns_out, y, high, low, conv]
    exact joinBytes_highByte_lowByte raw
  · simp [answered.frame.dev, dev]
  · simp [answered.frame.bus, exec_busRd_brackets ready read]

/-- A turn up to the addition, for a selector that has a row: the term to be added stands on the outputs. -/
theorem runWith_turn_of_gainRow {r : GainRow} (hp : s.program = averageTurn g next v ++ rest) (ready : s.dev.ready = true)
    (conv : s.dev.conv = raw) (row : gainRow s.cfg g = some r) (d₂ d₃ d₄ : Bool × Word) :
    ∃ t, runWith [d₂, d₃, d₄] s = .next t ∧ t.program = .avgAdd v :: rest ∧ t.outcome = .ok ∧ t.cfg = s.cfg ∧
      t.faults = s.faults ∧ t.avg = s.avg ∧ sampleTerm v t.out = sampleReading s.cfg.flt r v raw ∧
      t.bus.brackets = s.bus.brackets + 1 := by
  obtain ⟨t, run, program, sampled⟩ := runWith_read_join hp ready conv d₂ d₃
  obtain ⟨u, st, converts, answered, term⟩ := exec_convertInstr_of_gainRow
    (s := t.present (encode (convertInstr g v t.out.y))) (by rw [State.present_cfg, sampled.cfg, row]) v t.out.y
  have third := stepWith_of_exec program (convertItem_request g v t) converts d₄.1 d₄.2
  refine ⟨_, (runWith_append run [d₄]).trans (runWith_cons third []), ?_, answered.outcome, ?_, ?_, ?_, ?_, ?_⟩
  · simp [answered.program, program]
  · simp [answered.frame.cfg, sampled.cfg]
  · simp [answered.faults, sampled.faults]
  · simp [answered.frame.avg, sampled.avg]
  · rw [State.deviceRuns_out, term, State.present_cfg, sampled.cfg, sampled.y]
  · simp [answered.frame.bus, sampled.brackets]

/-- A turn up to the addition, for a selector that has none: the fault is raised after the read took place (R163). -/
theorem runWith_turn_of_invalid (hp : s.program = averageTurn g next v ++ rest) (ready : s.dev.ready = true)
    (conv : s.dev.conv = raw) (invalid : 6 ≤ g.toNat) (d₂ d₃ d₄ : Bool × Word) :
    ∃ t, runWith [d₂, d₃, d₄] s = .next t ∧ t.program = .avgAdd v :: rest ∧ t.outcome = .fault (.invalidPga g) ∧
      t.faults = s.faults ++ [.invalidPga g] ∧ t.dev.config = (s.dev.write next).config ∧
      t.bus.brackets = s.bus.brackets + 1 := by
  obtain ⟨t, run, program, sampled⟩ := runWith_read_join hp ready conv d₂ d₃
  have third := stepWith_of_exec program (convertItem_request g v t)
    (exec_convertInstr_of_invalid invalid v t.out.y _) d₄.1 d₄.2
  refine ⟨_, (runWith_append run [d₄]).trans (runWith_cons third []), ?_, rfl, ?_, ?_, ?_⟩
  · simp [program]
  · simp [sampled.faults]
  · simp [sampled.config]
  · simp [sampled.brackets]

end

/-! ## All turns (R160, R161) -/

/-- The turns and the mean, from a step of the host's own work (the beginning, or the addition of the turn before) that leaves
`u` for the device to run on: the device is then ready with the first of the samples. -/
theorem runWith_averageTurns {c : Config} {g : BitVec 3} {next : Word} {v : AvgVariant} {r : GainRow} {n : Nat}
    {rest : List HostItem} (row : gainRow c g = some r) (pos : 0 < n) (fill : Nat → Bool × Word) (k : Nat)
    (raws : List Word) {s u : State} (work : ∀ d : Bool × Word, stepWith d.1 d.2 s = .next (u.deviceRuns d.1 d.2))
    (cfg : u.cfg = c) (program : u.program = averageTurns g next v (.avgMean n v :: rest) raws.length) :
    ∃ t roundsUp, runWith (averageDraws fill k raws) s = .next t ∧ t.program = rest ∧ t.faults = u.faults ∧
      t.avg.result = .mean (meanValue v (u.avg.sum + (raws.map (sampleReading c.flt r v)).sum) n roundsUp) ∧
      t.bus.brackets = u.bus.brackets + raws.length := by
  induction raws generalizing s u k with
  | nil =>
    have last := stepWith_avgMean (s := u.deviceRuns (fill k).1 (fill k).2) program (fill (k + 1)).1 (fill (k + 1)).2
    refine ⟨_, Config.freeRoundsUp (u.draws + 1), (runWith_cons (work _) _).trans (runWith_cons last []), ?_⟩
    simp [State.endAverage_of_pos _ pos, program, averageTurns]
  | cons raw raws ih =>
    obtain ⟨w, turn, program', ok, cfg', faults, avg, term, brackets⟩ := runWith_turn_of_gainRow
      (s := u.deviceRuns true raw) (raw := raw) program rfl rfl (cfg ▸ row) (fill k) (fill (k + 1)) (fill (k + 2))
    have sum : (w.addSample v).avg.sum = u.avg.sum + sampleReading c.flt r v raw := by
      simp [State.addSample_of_ok ok, term, avg, cfg]
    obtain ⟨t, roundsUp, run, done, faults', result, brackets'⟩ := ih (k + 3)
      (fun d => stepWith_avgAdd program' d.1 d.2) (by simp [cfg', cfg]) (by simp [State.addSample_of_ok ok, program'])
    refine ⟨t, roundsUp, (runWith_cons (work (true, raw)) _).trans ((runWith_append turn _).trans run), done, ?_, ?_, ?_⟩
    · simp [faults', faults]
    · rw [result, sum, List.map_cons, List.sum_cons, add_assoc]
    · simp [brackets', brackets, Nat.add_assoc, Nat.add_comm 1]

/-- Settles O57: the turns, begun with the sum 0. -/
theorem averagedReadingIsTheMean : Obligations.AveragedReadingIsTheMean := by
  unfold Obligations.AveragedReadingIsTheMean
  rintro n g next v r raws fill rest s row rfl pos
  obtain ⟨t, roundsUp, run, program, faults, result, brackets⟩ :=
    runWith_averageTurns row pos fill 0 raws (fun d => stepWith_averageItems _ g next v rest s d.1 d.2) rfl rfl
  rw [State.averaging, zero_add] at result
  refine ⟨t, _, run, program, faults, result, ?float, ?integer, brackets⟩
  case float => rintro rfl; rfl
  case integer => rintro rfl; exact meanValue_integer ..

/-! ## An averaged reading that ends with a fault (R162, R163) -/

/-- Settles O59: the first turn raises, and its addition gives up the turns that are left. -/
theorem averageWithInvalidSelectorFaultsAfterOneRead : Obligations.AverageWithInvalidSelectorFaultsAfterOneRead := by
  unfold Obligations.AverageWithInvalidSelectorFaultsAfterOneRead
  intro n g next raw v rest s d₂ d₃ d₄ d₅ selector pos
  have invalid : 6 ≤ g.toNat := by rcases selector with rfl | rfl <;> decide
  obtain ⟨m, rfl⟩ := Nat.exists_eq_add_one.2 pos
  have begun := stepWith_averageItems (m + 1) g next v rest s true raw
  obtain ⟨t, turn, program, faulted, faults, config, brackets⟩ := runWith_turn_of_invalid
    (s := (s.averaging (m + 1) g next v rest).deviceRuns true raw) rfl rfl rfl invalid d₂ d₃ d₄
  have givesUp := stepWith_avgAdd program d₅.1 d₅.2
  rw [State.addSample_of_fault faulted] at givesUp
  refine ⟨_, (runWith_cons begun _).trans ((runWith_append turn [d₅]).trans (runWith_cons givesUp [])), rfl, faults, ?_,
    config, brackets⟩
  rw [State.deviceRuns_program, program]
  exact afterAverage_averageTurns g next v (m + 1) rest m

/-- Settles O58: with no turn in the list, the mean is the next thing the host computes. -/
theorem averageOfNothingFaults : Obligations.AverageOfNothingFaults := by
  unfold Obligations.AverageOfNothingFaults
  intro g next v rest s d₁ d₂
  have begun := stepWith_averageItems 0 g next v rest s d₁.1 d₁.2
  have ended := stepWith_avgMean (s := (s.averaging 0 g next v rest).deviceRuns d₁.1 d₁.2) rfl d₂.1 d₂.2
  exact ⟨_, (runWith_cons begun _).trans (runWith_cons ended []), rfl, rfl, rfl, rfl, rfl⟩

end Sys2Proof.Machine
end

section
/-! The exceptions (spec/60_exceptions.md). What a step does to the record of faults (R170, R176) is said by one predicate and
shown of everything a step is made of: a command answers or raises, a transaction records nothing, and of the host's own work
only the averaged reading of nothing does. The three kinds of command that raise or flag a status (R171, R172, R174) then read
their status vector off the rule of the command. -/

namespace Sys2Proof.Machine

/-! ## The record of faults (R170, R176) -/

/-- From `s` to `t` the record of faults stays as it is, or grows by one fault that `t` shows as the outcome of the command or of
the averaged reading. -/
def RecordGrows (s t : State) : Prop :=
  t.faults = s.faults ∨ ∃ f, t.faults = s.faults ++ [f] ∧ (t.outcome = .fault f ∨ t.avg.result = .fault f)

section
variable {s t : State}

/-- It looks at nothing but the record in the state before, and at nothing but these three fields in the state after. -/
theorem RecordGrows.congr {s' t' : State} (grows : RecordGrows s t) (before : s'.faults = s.faults)
    (faults : t'.faults = t.faults) (outcome : t'.outcome = t.outcome) (avg : t'.avg = t.avg) : RecordGrows s' t' := by
  rw [RecordGrows, before, faults, outcome, avg]
  exact grows

theorem Answered.recordGrows {v : Status} (answered : Answered s t v) : RecordGrows s t := .inl answered.faults

theorem Faulted.recordGrows {f : CommandFault} (faulted : Faulted s t f) : RecordGrows s t :=
  .inr ⟨f, faulted.faults, .inl faulted.outcome⟩

theorem BusFrame.recordGrows (frame : BusFrame s t) : RecordGrows s t := .inl frame.faults

theorem exec_recordGrows {i : Instr} (h : exec i s = .next t) : RecordGrows s t := by
  cases hi : isTransaction i with
  | false =>
    obtain ⟨u, hu, ends⟩ := exec_command hi s
    obtain rfl : u = t := Host.Outcome.next.inj (hu.symm.trans h)
    rcases ends with ⟨_, answered⟩ | ⟨_, faulted⟩
    · exact answered.recordGrows
    · exact faulted.recordGrows
  | true => exact (exec_transaction_frame hi h).recordGrows

end

/-- A count of 0 is the only one that records anything (R162). -/
theorem recordGrows_endAverage (s : State) (n : Nat) (v : AvgVariant) : RecordGrows s (s.endAverage n v) := by
  rcases Nat.eq_zero_or_pos n with rfl | pos
  · exact .inr ⟨.divideByZero, rfl, .inr rfl⟩
  · exact .inl (by rw [s.endAverage_of_pos pos v])

/-- Giving up an averaged reading records nothing again: the conversion that faulted is on record already (R163). -/
theorem recordGrows_hostWork (s : State) (item : HostItem) : RecordGrows s (s.hostWork item) := by
  cases item with
  | avgAdd v => exact .inl (s.addSample_faults v)
  | avgMean n v => exact recordGrows_endAverage s n v
  | _ => exact .inl rfl

theorem stepWith_recordGrows {ready : Bool} {conv : Word} {s t : State} (h : stepWith ready conv s = .next t) :
    RecordGrows s t := by
  rcases stepWith_cases h with ⟨-, rfl⟩ | ⟨item, -, rfl⟩ | ⟨r, i, u, -, run, rfl⟩
  · exact .inl rfl
  · exact (recordGrows_hostWork s item).congr rfl rfl rfl rfl
  · exact (exec_recordGrows run).congr (s.present_faults r).symm rfl rfl rfl

/-- Settles O50, by what the host does in the step; the device running touches no fault, outcome or averaged reading. -/
theorem faultRecordOnlyGrows : Obligations.FaultRecordOnlyGrows := by
  unfold Obligations.FaultRecordOnlyGrows
  exact fun _ _ h => stepWith_recordGrows h

/-! ## The commands that raise (R171, R172) -/

theorem faultStatus_illegalOp_vector (op : BitVec 4) : (faultStatus (.illegalOp op)).vector = 0b00001 := by
  rw [faultStatus]
  decide

theorem faultStatus_invalidPga_vector (g : BitVec 3) : (faultStatus (.invalidPga g)).vector = 0b00100 := by
  rw [faultStatus]
  decide

/-- What raising shows: the fault with its whole effect, and the fault's own status vector. -/
theorem exec_faulted_of_raise {i : Instr} {s : State} {f : CommandFault} {code : BitVec 5} (raises : exec i s = .next (s.raise f))
    (vector : (faultStatus f).vector = code) : ∃ t, exec i s = .next t ∧ Faulted s t f ∧ t.st.vector = code :=
  ⟨_, raises, raise_faulted s f, by rw [State.raise_st, vector]⟩

/-- Settles O13: the two selectors have no row. -/
theorem invalidPgaSelectorFaults : Obligations.InvalidPgaSelectorFaults := by
  unfold Obligations.InvalidPgaSelectorFaults
  intro g a s selector
  have invalid : 6 ≤ g.toNat := by rcases selector with rfl | rfl <;> decide
  exact ⟨exec_faulted_of_raise (exec_adcScale_of_invalid invalid a) (faultStatus_invalidPga_vector g),
    exec_faulted_of_raise (exec_adcMv_of_invalid invalid a) (faultStatus_invalidPga_vector g)⟩

/-- Settles O15: each reserved op code raises, and its word is the op code above zero fields. -/
theorem reservedOpCodesFault : Obligations.ReservedOpCodesFault := by
  unfold Obligations.ReservedOpCodesFault
  intro s
  refine ⟨?_, ?_, ?_, ?_, rfl, rfl, rfl, rfl⟩
  · exact exec_faulted_of_raise (exec_reservedC_eq s) (faultStatus_illegalOp_vector _)
  · exact exec_faulted_of_raise (exec_reservedD_eq s) (faultStatus_illegalOp_vector _)
  · exact exec_faulted_of_raise (exec_reservedE_eq s) (faultStatus_illegalOp_vector _)
  · exact exec_faulted_of_raise (exec_reservedF_eq s) (faultStatus_illegalOp_vector _)

/-! ## An index out of range (R174) -/

theorem bitIndexStatus_vector_of_not_le {n : BitVec 5} (outside : ¬ n.toNat ≤ 15) :
    (bitIndexStatus n).vector = 0b00010 := by
  rw [bitIndexStatus, (indexOutOfRange_iff n).2 outside]
  rfl

/-- A bit accessor with such an index ends with `ok` beside the status, and nothing is recorded. -/
theorem Answered.flagged_of_not_le {n : BitVec 5} {s t : State} (answered : Answered s t (bitIndexStatus n))
    (outside : ¬ n.toNat ≤ 15) : t.outcome = .ok ∧ t.st.vector = 0b00010 ∧ t.faults = s.faults :=
  ⟨answered.outcome, by rw [answered.status, bitIndexStatus_vector_of_not_le outside], answered.faults⟩

/-- Settles O6: the results are those of the accessors from index 16 on. -/
theorem bitIndexOutOfRangeIsFlagged : Obligations.BitIndexOutOfRangeIsFlagged := by
  unfold Obligations.BitIndexOutOfRangeIsFlagged
  intro n a s large
  have outside : ¬ n.toNat ≤ 15 := by omega
  refine ⟨?test, ?set, ?clear⟩
  case test =>
    obtain ⟨t, test, answered, yb⟩ := exec_cfgBtst n a s
    obtain ⟨ok, vector, faults⟩ := answered.flagged_of_not_le outside
    exact ⟨t, test, ok, vector, faults, by rw [yb, testBit_eq_ite, if_neg outside]⟩
  case set =>
    obtain ⟨t, set, answered, y⟩ := exec_cfgBset n a s
    obtain ⟨ok, vector, faults⟩ := answered.flagged_of_not_le outside
    exact ⟨t, set, ok, vector, faults, by rw [y, setBit_eq_ite, if_neg outside]⟩
  case clear =>
    obtain ⟨t, clear, answered, y⟩ := exec_cfgBclr n a s
    obtain ⟨ok, vector, faults⟩ := answered.flagged_of_not_le outside
    exact ⟨t, clear, ok, vector, faults, by rw [y, clearBit_eq_ite, if_neg outside]⟩

end Sys2Proof.Machine
end
